-- ==== Sys2Proof/Word.lean ====
section
/-! DEFINITION. The words of the Otkarn 4416: bytes, 16-bit values, 24-bit samples, and the index types of its ports and slots. -/

namespace Sys2Proof

/-- A byte of a lane frame or of a management message. -/
abbrev Byte := BitVec 8

/-- A two-byte value: period numbers, sequence numbers, statistics counters, gains. -/
abbrev Word16 := BitVec 16

/-- A sample: 24-bit two's complement (00_scope.md, Samples). -/
abbrev Sample := BitVec 24

/-- A lane index, shared by ingress port IPp and egress port EPp. -/
abbrev PortIdx := Fin 4

/-- An input or output slot index p*16+ss. -/
abbrev SlotIdx := Fin 64

/-- The 59 bytes of a lane frame in the order they are sent (R1). -/
abbrev LaneFrame := Vector Byte 59

end Sys2Proof
end

