-- ==== Sys2Proof/Config.lean ====
section
/-! DEFINITION. The numbers the manual fixes for this part. The manual leaves no result value undefined, so there is no
free value here: every order it leaves open is chosen by the order of the rows in the command queue (log entry 3). -/

namespace Sys2Proof.Config

/-- R1, Table 3: the two bytes of the sync marker. -/
def markerHigh : Byte := 0xB4#8
def markerLow : Byte := 0x2D#8

/-- R1: bits of a lane frame. -/
def frameBits : Nat := 472

/-- R46, R48: nominal length of a reference period and the clamp of a tracked length, in ticks. -/
def nominalPeriod : Nat := 512
def shortestPeriod : Nat := 507
def longestPeriod : Nat := 517

/-- R54: frames an elastic store can hold. -/
def storeDepth : Nat := 8

/-- R31: intervals kept in an interval history. -/
def historyDepth : Nat := 8

/-- R148: the largest fragment index of a message. -/
def lastFragmentIndex : Nat := 21

/-- R149: boundaries of silence after which a partial message is discarded. -/
def reassemblyTimeout : Nat := 256

/-- R152: messages the command queue can hold. -/
def commandDepth : Nat := 8

/-- R156: responses a response queue can hold. -/
def responseDepth : Nat := 4

/-- R169: records the event queue can hold. -/
def eventDepth : Nat := 32

/-- R173: records that may be OUTSTANDING or in transmission together. -/
def outstandingLimit : Nat := 4

/-- R174: periods after which an OUTSTANDING record times out, and how often a record is sent. -/
def reportTimeout : Nat := 1024
def sendLimit : Nat := 4

/-- R100: full ramp level. -/
def fullLevel : Nat := 4096

/-- R131: unity gain times full level, the one divisor of the mix. -/
def mixDivisor : Nat := 67108864

/-- R65: unity gain. -/
def unityGain : Word16 := 16384#16

/-- R162: vendor code, part code and revision. -/
def vendorCode : Word16 := 0x0C51#16
def partCode : Word16 := 0x4416#16
def revision : Byte := 1#8

/-- R83: the largest distance at which a scheduled commit is accepted. -/
def farthestCommit : Nat := 32767

end Sys2Proof.Config
end

