-- ==== Sys2Proof/Syntax.lean ====
section
/-! DEFINITION. The part's commands: one constructor of Instr for each row of spec/opcode_table.json. -/

namespace Sys2Proof

/-- A complete management message in the command queue (R152): its bytes and the ingress port it came from. -/
structure Message where
  source : PortIdx
  bytes : List Byte
  deriving DecidableEq, Repr

/-- One block's own work at a boundary, as 95_what_each_step_holds.md lists it under BOUNDARY. The blocks need no order
among themselves (R46), so each can be taken by itself. -/
inductive Work where
  /-- TIMING_STATE_FIX, R48: the reference timing unit. -/
  | timing
  /-- WINDOW_COUNTDOWN, R24 and R25: the qualification window of one port. -/
  | window (p : PortIdx)
  /-- R149: the reassembly buffer of one port. -/
  | silence (p : PortIdx)
  /-- R85 to R87: the commit unit's own work, where a pending commit takes effect. -/
  | commit
  /-- R154: the command processor looks through the command queue. -/
  | look
  /-- PICK, R57 and R58: the elastic store of one port. -/
  | pick (p : PortIdx)
  /-- SETTLE_CHECK, R109: one slot. -/
  | check (i : SlotIdx)
  /-- PROTECTION_EVALUATION, R116: one slot. -/
  | protect (i : SlotIdx)
  /-- R97: the making of one slot's context, its settle check (R109), its requests and TRANSITION_STEP (R99). -/
  | transition (i : SlotIdx)
  /-- OUTPUT_SAMPLE, CLIP and PEAK_UPDATE, R131, R135, R136: one slot. -/
  | mix (i : SlotIdx)
  /-- MONITOR_EVALUATION, R140: one monitor. -/
  | monitor (m : Fin 4)
  /-- TRANSMITTER_PICK, R157: the service transmitter of one egress port. -/
  | transmitter (e : PortIdx)
  /-- EGRESS_FRAME, R18: one egress port. -/
  | frame (e : PortIdx)
  deriving DecidableEq, Repr

/-- How much of a boundary one BOUNDARY row takes (log entry 3). The manual lets a command, a port change or another
block's work fall before or after any block's work at the same boundary; a row between `opening` and `rest` does. -/
inductive BoundaryPart where
  /-- The boundary with everything that falls due at it. -/
  | whole
  /-- The period counter advances and the reports grow one period older; the blocks' works stay due. -/
  | opening
  /-- One work of the boundary in progress, with what must come before it. -/
  | only (w : Work)
  /-- Every work of the boundary in progress still due. -/
  | rest
  deriving DecidableEq, Repr

/-- The steps of the part. `elapsed` counts the REFCLK ticks since the row before; a frame operand is the 472 bits the
lane delivers at the examined position, as 59 bytes; a management row carries the message the processor executes. -/
inductive Instr where
  | powerOnReset (ctlsel : BitVec 2)
  | pinReset (ctlsel : BitVec 2)
  | softResetTakesEffect
  | boundary (part : BoundaryPart)
  | windowComplete (p : PortIdx)
  | missTimeout (p : PortIdx) (elapsed : Nat)
  | candidate (p : PortIdx) (elapsed : Nat) (position : Nat) (frame : LaneFrame)
  | confirmingFrame (p : PortIdx) (elapsed : Nat) (frame : LaneFrame)
  | arrival (p : PortIdx) (elapsed : Nat) (frame : LaneFrame)
  | crcErrorFrame (p : PortIdx) (elapsed : Nat) (frame : LaneFrame)
  | missingMarker (p : PortIdx) (elapsed : Nat) (frame : LaneFrame)
  | reassemblyTimeout (p : PortIdx)
  | commitTakesEffect
  | phaseEnd (i : SlotIdx)
  | revert (i : SlotIdx)
  | levelHoldReached (monitor : Fin 4)
  | messageFullySent (e : PortIdx)
  | reportTimeout (sequence : Word16)
  | unrecognisedCode (m : Message)
  | identify (m : Message)
  | softReset (m : Message)
  | setControl (m : Message)
  | portConfig (m : Message)
  | portRestart (m : Message)
  | readPort (m : Message)
  | timingConfig (m : Message)
  | readTiming (m : Message)
  | stageEntry (m : Message)
  | copyActive (m : Message)
  | readEntry (m : Message)
  | commit (m : Message)
  | cancelCommit (m : Message)
  | readCommit (m : Message)
  | writeProfile (m : Message)
  | readProfile (m : Message)
  | readSlot (m : Message)
  | switch (m : Message)
  | egressConfig (m : Message)
  | readMeters (m : Message)
  | monitorConfig (m : Message)
  | eventConfig (m : Message)
  | eventAck (m : Message)
  | readAlarms (m : Message)
  | clearAlarms (m : Message)
  | alarmConfig (m : Message)
  deriving DecidableEq, Repr

end Sys2Proof
end

