-- ==== Sys2Proof/Decode.lean ====
section
/-! DEFINITION. The words of the table. No row of spec/opcode_table.json gives bits, so no word spells a row. -/

namespace Sys2Proof

/-- Every word is rejected: the rows are steps of a block, and none of them has an encoding. -/
def decodeTableWord (_nbits _w : Nat) : Option Instr := none

end Sys2Proof
end

