-- ==== Sys2Proof/Machine/Frames.lean ====
section
/-! DEFINITION. The lane frame and its fields (R1 to R3), the CRC (R2), the service tag and the fragments of a message
(R12, R13), and the fields of a management message (R14, R15). -/

namespace Sys2Proof.Machine

/-- R2: one bit of the CRC register's advance; generator x^16 + x^12 + x^5 + 1. -/
def crcShift (c : Word16) : Word16 :=
  if c.msb then (c <<< 1) ^^^ 0x1021#16 else c <<< 1

/-- R2: one byte into the CRC register, most significant bit first. -/
def crcByte (c : Word16) (b : Byte) : Word16 :=
  crcShift (crcShift (crcShift (crcShift (crcShift (crcShift (crcShift (crcShift
    (c ^^^ (b ++ 0#8)))))))))

/-- R2: the check register starts at 0xFFFF and is sent unaltered. -/
def crc (bytes : List Byte) : Word16 :=
  bytes.foldl crcByte 0xFFFF#16

/-- R2: bytes 2 to 56 of a frame, in the order they are sent. -/
def crcCovered (f : LaneFrame) : List Byte :=
  (f.toList.drop 2).take 55

/-- R3: bytes 0 and 1 are the sync marker. -/
def markerPresent (f : LaneFrame) : Bool :=
  f[0] = Config.markerHigh && f[1] = Config.markerLow

/-- R2: bytes 57 and 58 agree with the CRC in all 16 bits. -/
def crcCorrect (f : LaneFrame) : Bool :=
  crc (crcCovered f) = f[57] ++ f[58]

/-- R3. -/
def frameValid (f : LaneFrame) : Bool :=
  markerPresent f && crcCorrect f

/-- Table 3: the sequence byte, the slot-valid map, the service tag and the samples. -/
def frameSequence (f : LaneFrame) : Byte := f[2]

def frameValidMap (f : LaneFrame) : Word16 := f[3] ++ f[4]

def frameTag (f : LaneFrame) : Byte := f[5]

def framePayload (f : LaneFrame) : List Byte := [f[6], f[7], f[8]]

def frameSample (f : LaneFrame) (s : Fin 16) : Sample :=
  (f[9 + 3 * s.val]'(by omega) ++ f[10 + 3 * s.val]'(by omega) : BitVec 16) ++ f[11 + 3 * s.val]'(by omega)

/-- R1: byte `n` (0 most significant) of a sample. -/
def sampleByte (x : Sample) (n : Nat) : Byte :=
  x.extractLsb' (16 - 8 * n) 8

/-- R12: a service field, the tag and the three payload bytes. -/
structure ServiceField where
  tag : Byte
  payload : Vector Byte 3
  deriving DecidableEq, Repr

/-- R12, Table 5: kind IDLE, index 0, three zero bytes. -/
def idleField : ServiceField :=
  { tag := 0#8, payload := Vector.replicate 3 0#8 }

/-- Table 3: byte `i` of bytes 2 to 56 of an egress frame, counted from byte 2. -/
def bodyByte (sequence : Byte) (valid : Word16) (field : ServiceField) (samples : Vector Sample 16) (i : Fin 55) :
    Byte :=
  if i.val = 0 then sequence
  else if i.val = 1 then valid.extractLsb' 8 8
  else if i.val = 2 then valid.extractLsb' 0 8
  else if i.val = 3 then field.tag
  else if h : i.val < 7 then field.payload[i.val - 4]'(by omega)
  else sampleByte (samples[(i.val - 7) / 3]'(by omega)) ((i.val - 7) % 3)

/-- R18: the egress frame, with its marker and its CRC over bytes 2 to 56. -/
def buildFrame (sequence : Byte) (valid : Word16) (field : ServiceField) (samples : Vector Sample 16) : LaneFrame :=
  let body : Vector Byte 55 := Vector.ofFn (bodyByte sequence valid field samples)
  let check := crc body.toList
  Vector.ofFn fun i : Fin 59 =>
    if i.val = 0 then Config.markerHigh
    else if i.val = 1 then Config.markerLow
    else if h : i.val < 57 then body[i.val - 2]'(by omega)
    else if i.val = 57 then check.extractLsb' 8 8
    else check.extractLsb' 0 8

/-- R12: the kind, the upper three bits of the tag. -/
def tagKind (tag : Byte) : Nat := tag.toNat / 32

/-- R12: the fragment index, the lower five bits of the tag. -/
def tagIndex (tag : Byte) : Nat := tag.toNat % 32

/-- R12: a tag of a kind and an index. -/
def makeTag (kind index : Nat) : Byte := BitVec.ofNat 8 (32 * kind + index)

/-- R13: n = ceil(L/3). -/
def fragmentCount (length : Nat) : Nat := (length + 2) / 3

/-- R13: fragment `j` of a message, its tag and its three bytes, padded with zero bytes. -/
def fragmentOf (bytes : List Byte) (j : Nat) : ServiceField :=
  let n := fragmentCount bytes.length
  let kind := if n ≤ 1 then 4 else if j = 0 then 1 else if j + 1 = n then 3 else 2
  { tag := makeTag kind j
    payload := Vector.ofFn fun k : Fin 3 => bytes.getD (3 * j + k.val) 0#8 }

/-- Table 6: byte `i` of a message, 0 beyond its end. -/
def messageByte (m : Message) (i : Nat) : Byte := m.bytes.getD i 0#8

def messageLength (m : Message) : Nat := (messageByte m 0).toNat

def messageCode (m : Message) : Byte := messageByte m 1

def messageTag (m : Message) : Byte := messageByte m 2

/-- R14: the response code, the command code plus 0x80, or the code itself from 0x80 up. -/
def responseCode (code : Byte) : Byte := code ||| 0x80#8

/-- Table 7: the command codes the part recognises. -/
def commandCodes : List Byte :=
  [0x01#8, 0x02#8, 0x03#8, 0x10#8, 0x11#8, 0x12#8, 0x18#8, 0x19#8, 0x20#8, 0x21#8, 0x22#8, 0x28#8, 0x29#8, 0x2A#8,
   0x30#8, 0x31#8, 0x32#8, 0x38#8, 0x40#8, 0x41#8, 0x42#8, 0x50#8, 0x51#8, 0x52#8, 0x53#8, 0x54#8]

end Sys2Proof.Machine
end

