-- ==== Sys2Proof/Machine/Types.lean ====
section
/-! DEFINITION. The types of the state each block of the part keeps (00_scope.md, Figure 1), as plain data. -/

namespace Sys2Proof.Machine

/-! ### The route table (04_the_route_table.md) -/

/-- Table 20: one term of a mix list. -/
structure Term where
  source : SlotIdx
  gain : Word16
  invert : Bool
  deriving DecidableEq, Repr

/-- R66: a mix list, its terms in the order they were given. -/
abbrev MixList := List Term

inductive RevertMode where
  | none
  | revert
  deriving DecidableEq, Repr

/-- Table 19: a route record. -/
structure RouteRecord where
  primary : MixList
  backup : Option MixList
  profile : Fin 8
  protectProfile : Fin 8
  revertMode : RevertMode
  wtr : Word16
  deriving DecidableEq, Repr

/-- R63: a route entry. -/
structure RouteEntry where
  active : RouteRecord
  staging : RouteRecord
  dirty : Bool
  deriving DecidableEq, Repr

/-! ### The commit unit (05_committing_changes.md) -/

inductive CommitKind where
  | immediate
  | scheduled
  deriving DecidableEq, Repr

/-- Table 21: the pending commit record. -/
structure PendingCommit where
  mask : BitVec 4
  effective : Word16
  kind : CommitKind
  deriving DecidableEq, Repr

/-! ### Ingress ports and their framers (01_lanes_and_frames.md, 02_ingress_ports.md) -/

/-- Table 4. -/
inductive FramerState where
  | searching
  | confirming
  | aligned
  deriving DecidableEq, Repr

/-- The framer's state (1.2). The aligned flag is the view `Framer.isAligned` of the framer state. `position` numbers the
stream's bits from the bit at which the framer was last set back: where the search goes on in SEARCHING, else where
the next frame is expected. -/
structure Framer where
  state : FramerState
  candidate : Nat
  position : Nat
  confirmCount : Nat
  missCount : Nat
  runCount : Nat
  lastSequence : Option Byte
  deriving DecidableEq, Repr

/-- Table 12. -/
inductive PortState where
  | disabled
  | search
  | qualify
  | prime
  | locked
  | lost
  deriving DecidableEq, Repr

/-- Table 11: the origin of a qualifying port; none when it is not qualifying. -/
inductive Origin where
  | search
  | lost
  deriving DecidableEq, Repr

/-- R38: a port's configuration, as the codes and values PORT_CONFIG writes; the enable stands in `Port.enabled`. -/
structure PortSettings where
  windowCode : BitVec 2
  tolerance : BitVec 4
  depthCode : BitVec 2
  missCode : BitVec 2
  primeCentre : BitVec 3
  deriving DecidableEq, Repr

/-- Table 14: the nine port counters. -/
structure PortCounters where
  crcErrors : Word16
  sequenceGaps : Word16
  alignmentLosses : Word16
  slipDrops : Word16
  slipRepeats : Word16
  fragmentErrors : Word16
  reassemblyTimeouts : Word16
  lengthErrors : Word16
  busyDrops : Word16
  deriving DecidableEq, Repr

/-- Table 11: the last recorded arrival. -/
structure RecordedArrival where
  tick : Nat
  sequence : Byte
  deriving DecidableEq, Repr

/-! ### Elastic stores (03_reference_timing_and_elastic_stores.md) -/

/-- 3.5: a frame record. -/
structure FrameRecord where
  samples : Vector Sample 16
  valid : Word16
  sequence : Byte
  deriving DecidableEq, Repr

/-- R57, R58: how the assigned frame was obtained. -/
inductive AssignKind where
  | silent
  | picked
  | repeated
  deriving DecidableEq, Repr

/-- Table 17: an elastic store. `pickDue`: the boundary in progress has not yet been taken by this store. `hushed`: the assigned
frame was assigned before a soft reset at the boundary in progress, and the mixer reads silence in its place (R145). -/
structure ElasticStore where
  fifo : List FrameRecord
  assigned : FrameRecord
  kind : AssignKind
  lastAssigned : FrameRecord
  pickDue : Bool
  hushed : Bool
  deriving DecidableEq, Repr

/-- Table 32: a reassembly buffer in ASSEMBLING; IDLE is its absence. -/
structure PartialMessage where
  bytes : List Byte
  expected : Nat
  silence : Nat
  deriving DecidableEq, Repr

/-- Table 11, with the port's framer, elastic store and reassembly buffer. The miss timer is the view `missElapsed`.
`depthInForce`, `missInForce`: the codes of D and M by which the present tick goes, those of the settings from the next tick
on (R32, R34, R40). `windowDue`, `silenceDue`: the boundary in progress has not yet been taken by the qualification window
(R24), by the reassembly buffer (R149). -/
structure Port where
  enabled : Bool
  settings : PortSettings
  state : PortState
  origin : Option Origin
  windowCounter : Nat
  arrivalCounter : Nat
  lastArrival : Option RecordedArrival
  history : List Word16
  counters : PortCounters
  depthInForce : BitVec 2
  missInForce : BitVec 2
  windowDue : Bool
  silenceDue : Bool
  framer : Framer
  store : ElasticStore
  reassembly : Option PartialMessage
  deriving DecidableEq, Repr

/-! ### The reference timing unit -/

inductive TimingState where
  | free
  | tracking
  | holdover
  deriving DecidableEq, Repr

/-- Table 15, the free-running tick count of 02_ingress_ports.md, and the count of ticks left in the period in progress.
`source` none is LOCAL. `beforeFirst`: no boundary has been made since a power-on or pin reset (R47). `atBoundary`: no
tick has passed since the last boundary. `fixDue`: R48 has not yet been applied at the boundary in progress. -/
structure TimingUnit where
  source : Option PortIdx
  state : TimingState
  periodLength : Nat
  periodCounter : Word16
  tick : Nat
  remaining : Nat
  beforeFirst : Bool
  atBoundary : Bool
  fixDue : Bool
  deriving DecidableEq, Repr

/-! ### Transitions, protection and meters of the output slots (06, 07, 08) -/

/-- Table 23: a transition profile. -/
structure Profile where
  fadeOut : Fin 1024
  gap : Fin 256
  fadeIn : Fin 1024
  settle : Fin 256
  deriving DecidableEq, Repr

inductive Phase where
  | steady
  | fadeOut
  | gap
  | fadeIn
  | settle
  deriving DecidableEq, Repr

/-- Table 24: a slot context. -/
structure SlotContext where
  phase : Phase
  sounding : MixList
  target : MixList
  level : Nat
  phaseLength : Nat
  phasePosition : Nat
  governing : Fin 8
  deriving DecidableEq, Repr

inductive ListSelect where
  | primary
  | backup
  deriving DecidableEq, Repr

/-- Table 26: a protection record; a WTR timer of none is idle. -/
structure Protection where
  selected : ListSelect
  held : Bool
  wtrTimer : Option Nat
  doubleLoss : Bool
  deriving DecidableEq, Repr

/-- 8.3, 8.4: the meters of an output slot. -/
structure Meters where
  clipCounter : Word16
  clipFlag : Bool
  peak : Nat
  deriving DecidableEq, Repr

/-- R130 to R133: the output sample and output slot-valid flag of the period in progress. -/
structure OutputSample where
  sample : Sample
  valid : Bool
  deriving DecidableEq, Repr

/-- Which of a slot's works at the boundary in progress are still due (R97, R116, R137). `notice`: a commit has replaced the
slot's entry, and the protection unit has not yet taken the entry-replaced notice (R123). -/
structure SlotDue where
  check : Bool
  notice : Bool
  protect : Bool
  transition : Bool
  mix : Bool
  deriving DecidableEq, Repr

/-- R101: a retarget request for a slot. -/
structure Request where
  target : MixList
  profile : Fin 8
  deriving DecidableEq, Repr

/-- An output slot. `settleFailed` and `requests` wait for the making of its context at the boundary in progress: what the
settle check found, and the requests in the order in which they were issued (R97, R102). -/
structure Slot where
  context : SlotContext
  protection : Protection
  meters : Meters
  output : OutputSample
  due : SlotDue
  settleFailed : Bool
  requests : List Request
  deriving DecidableEq, Repr

inductive MonitorMode where
  | above
  | below
  deriving DecidableEq, Repr

inductive MonitorState where
  | under
  | over
  deriving DecidableEq, Repr

/-- Table 31: a level monitor. `evalDue`: it has not yet evaluated the period in progress. -/
structure Monitor where
  enabled : Bool
  subject : SlotIdx
  mode : MonitorMode
  threshold : Nat
  hold : Nat
  state : MonitorState
  runCount : Nat
  evalDue : Bool
  deriving DecidableEq, Repr

/-! ### The management channel and the egress ports (09, 01) -/

/-- What a message being answered or sent is: a response, the OK response to SOFT_RESET (R164), or the report of the event
record with a sequence number (R17). -/
inductive MessageOrigin where
  | response
  | softReset
  | report (sequence : Word16)
  deriving DecidableEq, Repr

structure Response where
  bytes : List Byte
  origin : MessageOrigin
  deriving DecidableEq, Repr

/-- R157: a transmitter in SENDING: its message and the index of the next fragment to send. -/
structure Sending where
  bytes : List Byte
  next : Nat
  origin : MessageOrigin
  deriving DecidableEq, Repr

/-- An egress port: its enable (R19), response queue (R156), service transmitter (R157; none is IDLE), the service field
supplied for the period in progress, and the frame its lane carries in it (R18; none is the idle lane). `serviceDue`,
`frameDue`: that field, that frame is still to be made. -/
structure Egress where
  enabled : Bool
  responses : List Response
  transmitter : Option Sending
  field : ServiceField
  serviceDue : Bool
  lane : Option LaneFrame
  frameDue : Bool
  deriving DecidableEq, Repr

/-- R163, R166: the command processor. `resetDue`: the SOFT_RESET response has been fully sent at this boundary (R164). -/
inductive ProcessorState where
  | executing
  | halted
  | resetDue
  deriving DecidableEq, Repr

/-- The command queue (R152), the processor (R154) and the control port (R159). `turn`: the processor has not yet looked at
the boundary in progress. -/
structure Channel where
  queue : List Message
  processor : ProcessorState
  turn : Bool
  control : PortIdx
  deriving DecidableEq, Repr

/-! ### The event unit (10_events_and_alarms.md) -/

/-- Table 10, in the order of the kind codes. -/
inductive EventKind where
  | resetDone
  | portLost
  | portLocked
  | qualifyFail
  | slip
  | timingState
  | commitDone
  | transitionDone
  | transitionSuperseded
  | settleFail
  | failover
  | revert
  | forcedRevert
  | doubleLoss
  | clip
  | levelOver
  | levelUnder
  | mgmtError
  | controlMoved
  | eventLoss
  deriving DecidableEq, Repr

/-- R168: the configuration of one event kind. -/
structure KindConfig where
  enabled : Bool
  priority : Fin 4
  deriving DecidableEq, Repr

inductive ReportState where
  | unsent
  | outstanding
  deriving DecidableEq, Repr

/-- Table 37: an event record. `stalled`: held by the stall (R175). -/
structure EventRecord where
  sequence : Word16
  kind : EventKind
  priority : Fin 4
  subject : SlotIdx
  stamp : Word16
  detail : Word16
  state : ReportState
  inTransmission : Bool
  sendCount : Nat
  age : Nat
  stalled : Bool
  deriving DecidableEq, Repr

inductive ReportPath where
  | running
  | stalled
  deriving DecidableEq, Repr

inductive ResetCause where
  | powerOn
  | pin
  | soft
  deriving DecidableEq, Repr

/-- Table 35: the event unit; `config` is indexed by kind code less 1, the masks by alarm number (Table 38). -/
structure EventUnit where
  config : Vector KindConfig 20
  queue : List EventRecord
  sequence : Word16
  loss : Word16
  path : ReportPath
  latched : BitVec 17
  pinMask : BitVec 17
  cause : ResetCause
  deriving DecidableEq, Repr

end Sys2Proof.Machine
end

