-- ==== Sys2Proof/Machine/ResetValues.lean ====
section
/-! DEFINITION. The values each block takes at power-on and pin reset. -/

namespace Sys2Proof.Machine


/-- 3.5: the silent frame. -/
def silentFrame : FrameRecord :=
  { samples := Vector.replicate 16 0#24, valid := 0#16, sequence := 0#8 }

/-- R11. -/
def framerSetBack : Framer :=
  { state := .searching, candidate := 0, position := 0, confirmCount := 0, missCount := 0, runCount := 0,
    lastSequence := none }

def zeroCounters : PortCounters :=
  { crcErrors := 0#16, sequenceGaps := 0#16, alignmentLosses := 0#16, slipDrops := 0#16, slipRepeats := 0#16,
    fragmentErrors := 0#16, reassemblyTimeouts := 0#16, lengthErrors := 0#16, busyDrops := 0#16 }

/-- R62. -/
def emptyStore : ElasticStore :=
  { fifo := [], assigned := silentFrame, kind := .silent, lastAssigned := silentFrame, pickDue := false,
    hushed := false }

/-- R44: W, T, D, M, C of 256, 2, 4, 3, 3. -/
def resetSettings : PortSettings :=
  { windowCode := 2#2, tolerance := 2#4, depthCode := 2#2, missCode := 1#2, primeCentre := 3#3 }

/-- R44, R62, R166. -/
def resetPort : Port :=
  { enabled := true, settings := resetSettings, state := .search, origin := none, windowCounter := 0,
    arrivalCounter := 0, lastArrival := none, history := [], counters := zeroCounters,
    depthInForce := resetSettings.depthCode, missInForce := resetSettings.missCode, windowDue := false,
    silenceDue := false, framer := framerSetBack, store := emptyStore, reassembly := none }

/-- R53; boundary 0 falls at the first tick after the reset ends (R47). -/
def resetTiming : TimingUnit :=
  { source := none, state := .free, periodLength := Config.nominalPeriod, periodCounter := 0#16, tick := 0,
    remaining := 1, beforeFirst := true, atBoundary := false, fixDue := false }

/-- R78: the straight-through primary list of a slot. -/
def straightList (i : SlotIdx) : MixList :=
  [{ source := i, gain := Config.unityGain, invert := false }]

/-- R78. -/
def straightRecord (i : SlotIdx) : RouteRecord :=
  { primary := straightList i, backup := none, profile := 0, protectProfile := 0, revertMode := .none, wtr := 0#16 }

/-- R78. -/
def resetRoute (i : SlotIdx) : RouteEntry :=
  { active := straightRecord i, staging := straightRecord i, dirty := false }

/-- R111. -/
def zeroProfile : Profile := { fadeOut := 0, gap := 0, fadeIn := 0, settle := 0 }

/-- R111. -/
def resetContext (i : SlotIdx) : SlotContext :=
  { phase := .steady, sounding := straightList i, target := straightList i, level := Config.fullLevel,
    phaseLength := 0, phasePosition := 0, governing := 0 }

/-- R128. -/
def resetProtection : Protection :=
  { selected := .primary, held := false, wtrTimer := none, doubleLoss := false }

/-- R144. -/
def zeroMeters : Meters := { clipCounter := 0#16, clipFlag := false, peak := 0 }

def nothingDue : SlotDue := { check := false, notice := false, protect := false, transition := false, mix := false }

/-- R111, R128, R144. -/
def resetSlot (i : SlotIdx) : Slot :=
  { context := resetContext i, protection := resetProtection, meters := zeroMeters,
    output := { sample := 0#24, valid := true }, due := nothingDue, settleFailed := false, requests := [] }

/-- R144. -/
def resetMonitor : Monitor :=
  { enabled := false, subject := 0, mode := .above, threshold := 0, hold := 1, state := .under, runCount := 0,
    evalDue := false }

/-- R19, R166; while the reset lasts the egress lanes are held idle (R47). -/
def resetEgress : Egress :=
  { enabled := true, responses := [], transmitter := none, field := idleField, serviceDue := false, lane := none,
    frameDue := false }

/-- Table 36: default enable and priority of each kind, in the order of the kind codes. -/
def defaultKindConfig : Vector KindConfig 20 :=
  #v[⟨true, 3⟩, ⟨true, 3⟩, ⟨true, 2⟩, ⟨true, 1⟩, ⟨true, 1⟩, ⟨true, 2⟩, ⟨true, 2⟩, ⟨false, 0⟩, ⟨false, 0⟩, ⟨true, 2⟩,
     ⟨true, 3⟩, ⟨true, 2⟩, ⟨true, 3⟩, ⟨true, 3⟩, ⟨true, 1⟩, ⟨true, 1⟩, ⟨true, 1⟩, ⟨true, 1⟩, ⟨true, 3⟩, ⟨true, 3⟩]

/-- R183: the RESET_DONE record, the queue's first after a power-on or pin reset. -/
def resetDoneRecord (detail : Word16) : EventRecord :=
  { sequence := 0#16, kind := .resetDone, priority := 3, subject := 0, stamp := 0#16, detail := detail,
    state := .unsent, inTransmission := false, sendCount := 0, age := 0, stalled := false }

/-- Table 10: the detail of RESET_DONE, which is also IDENTIFY's reset cause. -/
def ResetCause.code : ResetCause → Word16
  | .powerOn => 1#16
  | .pin => 2#16
  | .soft => 3#16

/-- R183. -/
def resetEvents (cause : ResetCause) : EventUnit :=
  { config := defaultKindConfig, queue := [resetDoneRecord cause.code], sequence := 1#16, loss := 0#16,
    path := .running, latched := 0#17, pinMask := BitVec.allOnes 17, cause := cause }

/-- R166; the processor has no turn before boundary 0. -/
def resetChannel (control : PortIdx) : Channel :=
  { queue := [], processor := .executing, turn := false, control := control }

end Sys2Proof.Machine
end

