-- ==== Sys2Proof/Machine/State.lean ====
section
/-! DEFINITION. The state of the part: every register, FIFO, buffer, counter and mode its blocks keep (00_scope.md, Figure 1), as
plain data, and the state right after power-on reset. -/

namespace Sys2Proof.Machine

/-- No step of this part stops with a fault: the manual gives every step its effect. -/
inductive Fault where
  deriving DecidableEq, Repr

/-- Reasons for giving a row no meaning. -/
inductive Refusal where
  /-- Raised by the dispatcher for a row without a meaning; safe, since nothing can then be proved of the row. -/
  | notModelled (mnemonic : String)
  deriving DecidableEq, Repr

/-- The part, and the rows that wait to be taken, first in, first out. `latching`: the lengths that a phase entered at the
boundary in progress latches. `entered`: the profiles under which one has been entered at it (R94). -/
structure State where
  ports : Vector Port 4
  timing : TimingUnit
  routes : Vector RouteEntry 64
  pendingCommit : Option PendingCommit
  profiles : Vector Profile 8
  latching : Vector Profile 8
  entered : Vector Bool 8
  slots : Vector Slot 64
  monitors : Vector Monitor 4
  egress : Vector Egress 4
  channel : Channel
  events : EventUnit
  pending : List Instr
  deriving DecidableEq, Repr

/-- The part after a power-on or pin reset that sampled the control port from CTLSEL, every block at its chapter's values. -/
def State.afterReset (cause : ResetCause) (control : PortIdx) : State :=
  { ports := Vector.replicate 4 resetPort
    timing := resetTiming
    routes := Vector.ofFn resetRoute
    pendingCommit := none
    profiles := Vector.replicate 8 zeroProfile
    latching := Vector.replicate 8 zeroProfile
    entered := Vector.replicate 8 false
    slots := Vector.ofFn resetSlot
    monitors := Vector.replicate 4 resetMonitor
    egress := Vector.replicate 4 resetEgress
    channel := resetChannel control
    events := resetEvents cause
    pending := [] }

/-- The part after a power-on reset with CTLSEL at 0 (log entry 5). -/
def State.reset : State := State.afterReset .powerOn 0

end Sys2Proof.Machine
end

