-- ==== Sys2Proof/Machine/Flags.lean ====
section
/-! DEFINITION. The latched alarms and their numbers (Table 38), the conditions of the condition alarms, and the ALARM_N pin. -/

namespace Sys2Proof.Machine

/-- Table 38: alarm numbers. -/
def alarmLost (p : PortIdx) : Fin 17 := ⟨p.val, by omega⟩
def alarmSlip (p : PortIdx) : Fin 17 := ⟨4 + p.val, by omega⟩
def alarmQualifyFail (p : PortIdx) : Fin 17 := ⟨8 + p.val, by omega⟩
def alarmHoldover : Fin 17 := 12
def alarmDoubleLoss : Fin 17 := 13
def alarmClip : Fin 17 := 14
def alarmEventLoss : Fin 17 := 15
def alarmReportStall : Fin 17 := 16

/-- R180: the mask bit of an alarm. -/
def alarmBit (n : Fin 17) : BitVec 17 := BitVec.twoPow 17 n.val

/-- R180: the mask bit of an alarm, where a condition asks for it. -/
def alarmBitIf (c : Bool) (n : Fin 17) : BitVec 17 := if c then alarmBit n else 0#17

/-- R179: an alarm becomes, or stays, latched. -/
def EventUnit.latch (n : Fin 17) (u : EventUnit) : EventUnit :=
  { u with latched := u.latched ||| alarmBit n }

/-- R36: the condition of a port's LOST alarm. -/
def State.lostCondition (s : State) (p : PortIdx) : Bool := s.ports[p].state = .lost

/-- R49: the condition of the HOLDOVER alarm. -/
def State.holdoverCondition (s : State) : Bool := s.timing.state = .holdover

/-- R122: the condition of the DOUBLE_LOSS alarm. -/
def State.doubleLossCondition (s : State) : Bool := s.slots.toList.any fun x => x.protection.doubleLoss

/-- R180: the bit of each condition alarm whose condition holds, 0 for the occurrence alarms. -/
def State.conditions (s : State) : BitVec 17 :=
  alarmBitIf (s.lostCondition 0) (alarmLost 0) ||| alarmBitIf (s.lostCondition 1) (alarmLost 1) |||
  alarmBitIf (s.lostCondition 2) (alarmLost 2) ||| alarmBitIf (s.lostCondition 3) (alarmLost 3) |||
  alarmBitIf s.holdoverCondition alarmHoldover ||| alarmBitIf s.doubleLossCondition alarmDoubleLoss

/-- R182: ALARM_N is driven low while an alarm is both latched and set in the pin mask. -/
def State.alarmPinLow (s : State) : Bool := s.events.latched &&& s.events.pinMask ≠ 0#17

/-- R181: the latched alarms after a clear of the masked ones; a condition that holds sets its alarm again. -/
def clearLatched (latched mask conditions : BitVec 17) : BitVec 17 :=
  (latched &&& ~~~mask) ||| (mask &&& conditions)

end Sys2Proof.Machine
end

