-- ==== Sys2Proof/Machine/Events.lean ====
section
/-! DEFINITION. The event unit: raising events, the event queue, offering, sending, timing out and acknowledging reports
(10_events_and_alarms.md). -/

namespace Sys2Proof.Machine

/-- A statistics counter increases by 1 and stays at 65,535 (00_scope.md, Counters). -/
def saturatingInc (c : Word16) : Word16 := if c = 0xFFFF#16 then c else c + 1#16

/-- Table 10: the kind code less 1. -/
def EventKind.index : EventKind → Fin 20
  | .resetDone => 0
  | .portLost => 1
  | .portLocked => 2
  | .qualifyFail => 3
  | .slip => 4
  | .timingState => 5
  | .commitDone => 6
  | .transitionDone => 7
  | .transitionSuperseded => 8
  | .settleFail => 9
  | .failover => 10
  | .revert => 11
  | .forcedRevert => 12
  | .doubleLoss => 13
  | .clip => 14
  | .levelOver => 15
  | .levelUnder => 16
  | .mgmtError => 17
  | .controlMoved => 18
  | .eventLoss => 19

/-- Table 10: the kind code. -/
def EventKind.code (k : EventKind) : Byte := BitVec.ofNat 8 (k.index.val + 1)

/-- R167: the two kinds that stay enabled at every moment, by kind code less 1. -/
def kindFixed (i : Fin 20) : Bool := i = EventKind.resetDone.index || i = EventKind.eventLoss.index

/-- R170: the first number from `c` on that no record of the queue holds; the queue's length bounds the search. -/
def freeSequence (held : List Word16) : Nat → Word16 → Word16
  | 0, c => c
  | n + 1, c => if c ∈ held then freeSequence held n (c + 1#16) else c

/-- R169: the record's place in report order, behind every record of its priority or higher. -/
def insertRecord (r : EventRecord) (q : List EventRecord) : List EventRecord :=
  q.takeWhile (fun x => r.priority ≤ x.priority) ++ r :: q.dropWhile (fun x => r.priority ≤ x.priority)

namespace EventUnit

/-- R170: the number the next record takes. -/
def nextSequence (u : EventUnit) : Word16 :=
  freeSequence (u.queue.map (·.sequence)) u.queue.length u.sequence

/-- R171: the record an event enters the queue as. -/
def newRecord (u : EventUnit) (stamp : Word16) (kind : EventKind) (subject : SlotIdx) (detail : Word16) : EventRecord :=
  { sequence := u.nextSequence, kind := kind, priority := u.config[kind.index].priority, subject := subject,
    stamp := stamp, detail := detail, state := .unsent, inTransmission := false, sendCount := 0, age := 0,
    stalled := false }

/-- R170, R171: a record joins the queue and takes its number. -/
def enter (u : EventUnit) (stamp : Word16) (kind : EventKind) (subject : SlotIdx) (detail : Word16) : EventUnit :=
  { u with queue := insertRecord (u.newRecord stamp kind subject detail) u.queue
           sequence := u.nextSequence + 1#16 }

/-- R171: an event met by a full queue is lost and counted. -/
def lose (u : EventUnit) : EventUnit :=
  ({ u with loss := saturatingInc u.loss } : EventUnit).latch alarmEventLoss

/-- R171. -/
def offer (u : EventUnit) (stamp : Word16) (kind : EventKind) (subject : SlotIdx) (detail : Word16) : EventUnit :=
  if u.queue.length < Config.eventDepth then u.enter stamp kind subject detail else u.lose

/-- R167: an event of a disabled kind leaves no trace. -/
def raise (stamp : Word16) (kind : EventKind) (subject : SlotIdx) (detail : Word16) (u : EventUnit) : EventUnit :=
  if u.config[kind.index].enabled then u.offer stamp kind subject detail else u

/-- R176: a record EVENT_ACK may remove by this number. -/
def acknowledges (n : Word16) (r : EventRecord) : Bool := r.sequence = n && r.state = .outstanding

/-- R172: after a removal, a loss counter above 0 becomes an EVENT_LOSS record in the place freed. -/
def reportLoss (stamp : Word16) (u : EventUnit) : EventUnit :=
  if u.loss = 0#16 then u else { u.enter stamp .eventLoss 0 u.loss with loss := 0#16 }

/-- R176, step 1, for one number: the unit after it and whether it removed a record. -/
def acknowledge (stamp : Word16) (n : Word16) (u : EventUnit) : EventUnit × Bool :=
  if u.queue.any (acknowledges n) then
    (({ u with queue := u.queue.eraseP (acknowledges n) } : EventUnit).reportLoss stamp, true)
  else (u, false)

/-- R176, step 1: each number in the order given, with the number of records removed. -/
def acknowledgeAll (stamp : Word16) : List Word16 → EventUnit → EventUnit × Nat
  | [], u => (u, 0)
  | n :: ns, u =>
    let a := u.acknowledge stamp n
    let b := acknowledgeAll stamp ns a.1
    (b.1, b.2 + if a.2 then 1 else 0)

/-- R176, steps 2 to 4: the path runs, send counts clear, and records held by the stall become UNSENT. -/
def resume (u : EventUnit) : EventUnit :=
  { u with path := .running
           queue := u.queue.map fun r =>
             { r with sendCount := 0, state := if r.stalled then .unsent else r.state, stalled := false } }

/-- R178: a move of the control port. -/
def moveControl (u : EventUnit) : EventUnit :=
  { u with path := .running
           queue := u.queue.map fun r => { r with sendCount := 0, state := .unsent, stalled := false } }

def isOutstanding (r : EventRecord) : Bool := r.state = .outstanding

/-- R173: the records that count toward the four. -/
def busyRecords (u : EventUnit) : Nat := u.queue.countP fun r => isOutstanding r || r.inTransmission

def outstandingRecords (u : EventUnit) : Nat := u.queue.countP isOutstanding

/-- R173: a record that may be offered. -/
def offerable (r : EventRecord) : Bool := r.state = .unsent && !r.inTransmission

/-- R173: the record offered at a pick, the first such record in report order. -/
def offered (u : EventUnit) : Option EventRecord :=
  if u.path = .running && u.busyRecords < Config.outstandingLimit then u.queue.find? offerable else none

/-- The record with a sequence number, changed. -/
def updateRecord (n : Word16) (f : EventRecord → EventRecord) (u : EventUnit) : EventUnit :=
  { u with queue := u.queue.map fun r => if r.sequence = n then f r else r }

/-- R173: the record's report begins to be sent. -/
def beginTransmission (n : Word16) (u : EventUnit) : EventUnit :=
  u.updateRecord n fun r => { r with inTransmission := true }

/-- R157: the record's report is abandoned. -/
def abandonTransmission (n : Word16) (u : EventUnit) : EventUnit :=
  u.updateRecord n fun r => { r with inTransmission := false }

/-- R174: the record's report has been fully sent. -/
def reportSent (n : Word16) (u : EventUnit) : EventUnit :=
  u.updateRecord n fun r =>
    if r.inTransmission then
      { r with inTransmission := false, state := .outstanding, sendCount := r.sendCount + 1, age := 0 }
    else r

/-- R174: at each boundary the age of every OUTSTANDING record increases by 1; a record held by the stall keeps its age. -/
def ageRecords (u : EventUnit) : EventUnit :=
  { u with queue := u.queue.map fun r => if isOutstanding r && !r.stalled then { r with age := r.age + 1 } else r }

/-- R174: a record whose age has reached the timeout. -/
def timedOut (r : EventRecord) : Bool := isOutstanding r && !r.stalled && Config.reportTimeout ≤ r.age

/-- R174, R175: what a timeout does to the record. -/
def timeOutRecord (r : EventRecord) : EventRecord :=
  if r.sendCount < Config.sendLimit then { r with state := .unsent } else { r with stalled := true }

/-- R175: a record whose timeout stalls the path. -/
def stalls (n : Word16) (r : EventRecord) : Bool := r.sequence = n && timedOut r && Config.sendLimit ≤ r.sendCount

/-- R175: the report path stalls and REPORT_STALL latches. -/
def stall (u : EventUnit) : EventUnit := ({ u with path := .stalled } : EventUnit).latch alarmReportStall

/-- R174, R175: the record with this number times out. -/
def timeOut (n : Word16) (u : EventUnit) : EventUnit :=
  let v := u.updateRecord n fun r => if timedOut r then timeOutRecord r else r
  if u.queue.any (stalls n) then v.stall else v

/-- R184: the event unit at a soft reset, before RESET_DONE is raised. -/
def softReset (u : EventUnit) : EventUnit :=
  { u with queue := [], sequence := 0#16, loss := 0#16, path := .running, latched := 0#17, cause := .soft }

end EventUnit

end Sys2Proof.Machine
end

