-- ==== Sys2Proof/Machine/Ops.lean ====
section
/-! DEFINITION. The shared operations over the state: one update for each block, raising an event, latching an alarm. -/

namespace Sys2Proof.Machine

/-- One element of a table replaced by its image. -/
def updateAt {α : Type} {n : Nat} (v : Vector α n) (i : Fin n) (f : α → α) : Vector α n := v.set i.val (f v[i]) i.isLt

/-- Every element of a table replaced by its image. -/
def mapTable {α β : Type} {n : Nat} (v : Vector α n) (f : α → β) : Vector β n := Vector.ofFn fun i => f v[i]

/-- An operation done once for each index of a table, in rising order. -/
def forEach {σ : Type} (n : Nat) (f : Fin n → σ → σ) (s : σ) : σ := (List.finRange n).foldl (fun s i => f i s) s

namespace State

def updatePort (s : State) (p : PortIdx) (f : Port → Port) : State := { s with ports := updateAt s.ports p f }

def updateTiming (s : State) (f : TimingUnit → TimingUnit) : State := { s with timing := f s.timing }

def updateRoute (s : State) (i : SlotIdx) (f : RouteEntry → RouteEntry) : State :=
  { s with routes := updateAt s.routes i f }

def setPendingCommit (s : State) (c : Option PendingCommit) : State := { s with pendingCommit := c }

def setProfile (s : State) (i : Fin 8) (p : Profile) : State := { s with profiles := updateAt s.profiles i fun _ => p }

def setLatching (s : State) (i : Fin 8) (p : Profile) : State := { s with latching := updateAt s.latching i fun _ => p }

/-- R94: where a phase has been entered under the profile at the boundary in progress, the lengths that its phases latch there
are settled. -/
def markEntered (s : State) (i : Fin 8) (enters : Bool) : State :=
  { s with entered := updateAt s.entered i fun b => b || enters }

def updateSlot (s : State) (i : SlotIdx) (f : Slot → Slot) : State := { s with slots := updateAt s.slots i f }

def updateMonitor (s : State) (m : Fin 4) (f : Monitor → Monitor) : State :=
  { s with monitors := updateAt s.monitors m f }

def updateEgress (s : State) (e : PortIdx) (f : Egress → Egress) : State := { s with egress := updateAt s.egress e f }

def updateChannel (s : State) (f : Channel → Channel) : State := { s with channel := f s.channel }

def updateEvents (s : State) (f : EventUnit → EventUnit) : State := { s with events := f s.events }

/-- R167: a block raises an event; its stamp is the period counter in that tick (R46, log entry 18). -/
def raise (s : State) (kind : EventKind) (subject : SlotIdx) (detail : Word16) : State :=
  s.updateEvents (EventUnit.raise s.timing.periodCounter kind subject detail)

/-- R179: an alarm latches. -/
def latch (s : State) (n : Fin 17) : State := s.updateEvents (EventUnit.latch n)

end State

/-- The subject that names a port, a monitor or another small number (Table 10). -/
def smallSubject (p : Fin 4) : SlotIdx := ⟨p.val, by omega⟩

/-- The lane of a slot index, and its slot within the lane (00_scope.md, Ports and slots). -/
def laneOf (i : SlotIdx) : PortIdx := ⟨i.val / 16, by omega⟩

def slotInLane (i : SlotIdx) : Fin 16 := ⟨i.val % 16, by omega⟩

/-- The slot index p*16+ss. -/
def slotIndex (p : PortIdx) (s : Fin 16) : SlotIdx := ⟨p.val * 16 + s.val, by omega⟩

end Sys2Proof.Machine
end

