-- ==== Sys2Proof/Machine/Operands.lean ====
section
/-! DEFINITION. The arguments of management messages, read from their bytes, and the bytes of results and responses
(R1: most significant byte first; R14). -/

namespace Sys2Proof.Machine

/-- A one-byte argument. -/
def argByte (m : Message) (i : Nat) : Nat := (messageByte m i).toNat

/-- A two-byte argument at byte `i`. -/
def argWord (m : Message) (i : Nat) : Word16 := messageByte m i ++ messageByte m (i + 1)

/-- A three-byte argument at byte `i`. -/
def argTriple (m : Message) (i : Nat) : BitVec 24 := argWord m i ++ messageByte m (i + 2)

/-- An argument that must lie below `n`. -/
def argFin (m : Message) (i n : Nat) : Option (Fin n) := if h : argByte m i < n then some ⟨argByte m i, h⟩ else none

/-- An argument that is 0 or 1. -/
def argBool (m : Message) (i : Nat) : Option Bool :=
  if argByte m i = 0 then some false else if argByte m i = 1 then some true else none

/-- The bytes of results. -/
def byteOf (n : Nat) : Byte := BitVec.ofNat 8 n

def boolByte (b : Bool) : Byte := if b then 1#8 else 0#8

def wordBytes (w : Word16) : List Byte := [w.extractLsb' 8 8, w.extractLsb' 0 8]

def natWordBytes (n : Nat) : List Byte := wordBytes (BitVec.ofNat 16 n)

def tripleBytes (w : BitVec 24) : List Byte := [w.extractLsb' 16 8, w.extractLsb' 8 8, w.extractLsb' 0 8]

/-- R180: a set of alarms as a 24-bit value. -/
def alarmBytes (a : BitVec 17) : List Byte := tripleBytes (a.setWidth 24)

/-- Table 8. -/
inductive Status where
  | ok
  | busy
  | badLength
  | badCode
  | badArg
  | notOwner
  | pending
  | late
  | notPending
  | unavailable
  deriving DecidableEq, Repr

/-- Table 8: the value of a status. -/
def statusByte : Status → Byte
  | .ok => 0#8
  | .busy => 1#8
  | .badLength => 2#8
  | .badCode => 3#8
  | .badArg => 4#8
  | .notOwner => 5#8
  | .pending => 6#8
  | .late => 7#8
  | .notPending => 8#8
  | .unavailable => 9#8

/-- R14: the bytes of a response. -/
def responseBytes (code tag : Byte) (status : Status) (results : List Byte) : List Byte :=
  [byteOf (4 + results.length), responseCode code, tag, statusByte status] ++ results

/-- R65, R71: the bytes of a term. -/
def termBytes (t : Term) : List Byte := byteOf t.source.val :: wordBytes t.gain ++ [boolByte t.invert]

/-- R71: the term at byte `i`; none where an argument is out of range (R72). -/
def argTerm (m : Message) (i : Nat) : Option Term :=
  match argFin m i 64, argBool m (i + 3) with
  | some source, some invert => some { source := source, gain := argWord m (i + 1), invert := invert }
  | _, _ => none

/-- R71: `n` terms from byte `i` on. -/
def argTerms (m : Message) : Nat → Nat → Option MixList
  | 0, _ => some []
  | n + 1, i =>
    match argTerm m i, argTerms m n (i + 4) with
    | some t, some ts => some (t :: ts)
    | _, _ => none

/-- R72: no two terms of a list name the same source. -/
def sourcesDistinct (l : MixList) : Bool := decide (l.map (·.source)).Nodup

/-- R71, R72: the list of `n` terms from byte `i` on; none where the list must be refused. -/
def argList (m : Message) (n i : Nat) : Option MixList :=
  match argTerms m n i with
  | some l => if sourcesDistinct l then some l else none
  | none => none

/-- R71, R72: the slot and the record a STAGE_ENTRY carries; none where an argument check fails. -/
def argRecord (m : Message) : Option (SlotIdx × RouteRecord) :=
  let np := argByte m 4
  let nb := argByte m 5
  if np ≤ 4 && nb ≤ 4 && messageLength m = 11 + 4 * (np + nb) then
    match argFin m 3 64, argFin m 6 8, argFin m 7 8, argBool m 8, argList m np 11, argList m nb (11 + 4 * np) with
    | some i, some profile, some protect, some mode, some primary, some backup =>
      some (i, { primary := primary
                 backup := if nb = 0 then none else some backup
                 profile := profile
                 protectProfile := protect
                 revertMode := if mode then .revert else .none
                 wtr := argWord m 9 })
    | _, _, _, _, _, _ => none
  else none

/-- R76: the bytes of a record after the dirty flag. -/
def recordBytes (r : RouteRecord) : List Byte :=
  let backup := r.backup.getD []
  [byteOf r.primary.length, byteOf backup.length, byteOf r.profile.val, byteOf r.protectProfile.val,
   boolByte (r.revertMode = .revert)] ++ wordBytes r.wtr ++ (r.primary ++ backup).flatMap termBytes

/-- R75, R81: a lane mask, refused when 0 or with a bit above bit 3. -/
def argMask (m : Message) (i : Nat) : Option (BitVec 4) :=
  if 1 ≤ argByte m i && argByte m i ≤ 15 then some (BitVec.ofNat 4 (argByte m i)) else none

/-- R181, R182: an alarm mask, refused with any of bits 17 to 23 set. -/
def argAlarmMask (m : Message) (i : Nat) : Option (BitVec 17) :=
  if (argTriple m i).toNat < 2 ^ 17 then some ((argTriple m i).setWidth 17) else none

/-- R17, Table 9: the report message of a record. -/
def reportBytes (r : EventRecord) : List Byte :=
  [12#8, 0x7E#8, 0#8] ++ wordBytes r.sequence ++ [r.kind.code, byteOf r.priority.val, byteOf r.subject.val] ++
    wordBytes r.stamp ++ wordBytes r.detail

end Sys2Proof.Machine
end

