-- ==== Sys2Proof/Machine/Ports.lean ====
section
/-! DEFINITION. The ingress port: configuration values, interval history and average, miss window, the changes of port state
(02_ingress_ports.md), and the elastic store's append, pick and flush (3.5). -/

namespace Sys2Proof.Machine

/-- R38: the window length W of a code. -/
def windowOf (code : BitVec 2) : Nat := 64 * 2 ^ code.toNat

/-- R38: the averaging depth D of a code. -/
def depthOf (code : BitVec 2) : Nat := 2 ^ code.toNat

/-- R38: the miss factor M of a code. -/
def missFactorOf (code : BitVec 2) : Nat :=
  if code = 0#2 then 2 else if code = 1#2 then 3 else if code = 2#2 then 4 else 8

namespace Framer

/-- 1.2: the aligned flag. -/
def isAligned (f : Framer) : Bool := f.state = .aligned

/-- R22: the run count becomes 0 if the aligned flag is set; otherwise the framer has cleared it already. -/
def restartRun (f : Framer) : Framer := if f.isAligned then { f with runCount := 0 } else f

end Framer

namespace ElasticStore

/-- R55: the store with one more record; a full store drops its oldest first. -/
def append (r : FrameRecord) (st : ElasticStore) : ElasticStore :=
  { st with fifo := (if st.fifo.length < Config.storeDepth then st.fifo else st.fifo.drop 1) ++ [r] }

/-- R55: an append that would drop. -/
def isFull (st : ElasticStore) : Bool := Config.storeDepth ≤ st.fifo.length

/-- R61. -/
def flush (st : ElasticStore) : ElasticStore := { st with fifo := [], lastAssigned := silentFrame }

/-- R57, R58: what the store assigns to the period, its port being LOCKED or not. -/
def pick (locked : Bool) (st : ElasticStore) : ElasticStore :=
  if locked then
    match st.fifo with
    | r :: rest =>
      { st with fifo := rest, assigned := r, kind := .picked, lastAssigned := r, pickDue := false, hushed := false }
    | [] => { st with assigned := st.lastAssigned, kind := .repeated, pickDue := false, hushed := false }
  else { st with assigned := silentFrame, kind := .silent, pickDue := false, hushed := false }

/-- R57: a pick that would repeat. -/
def wouldRepeat (locked : Bool) (st : ElasticStore) : Bool := locked && st.fifo.isEmpty

/-- R45, R59, R62: the store at a soft reset. Where the pick of the boundary has been taken first, its period keeps the frame
picked or repeated, and the flush follows; the mixer reads silence all the same (R145, log entry 19). -/
def softReset (st : ElasticStore) : ElasticStore :=
  if st.pickDue then { st.flush with assigned := silentFrame, kind := .silent, hushed := false }
  else { st.flush with hushed := true }

end ElasticStore

namespace Port

def window (p : Port) : Nat := windowOf p.settings.windowCode

def tolerance (p : Port) : Nat := p.settings.tolerance.toNat

/-- R40: D as it stands in the present tick. -/
def depth (p : Port) : Nat := depthOf p.depthInForce

/-- R40: M as it stands in the present tick. -/
def missFactor (p : Port) : Nat := missFactorOf p.missInForce

/-- R40: from the first tick after a PORT_CONFIG, D and M are those of the settings. -/
def nextTick (p : Port) : Port := { p with depthInForce := p.settings.depthCode, missInForce := p.settings.missCode }

def primeCentre (p : Port) : Nat := p.settings.primeCentre.toNat

/-- R21. -/
def isLocked (p : Port) : Bool := p.state = .locked

/-- R32: the newest D intervals. -/
def newest (p : Port) : List Word16 := p.history.drop (p.history.length - p.depth)

/-- R32. -/
def averageValid (p : Port) : Bool := p.depth ≤ p.history.length

/-- R32: the mean of the newest D intervals, halves rounded up. -/
def meanNewest (p : Port) : Nat := (2 * (p.newest.map (·.toNat)).sum + p.depth) / (2 * p.depth)

/-- R32: the average, where it is valid. -/
def average (p : Port) : Option Nat := if p.averageValid then some p.meanNewest else none

/-- R34. -/
def missWindow (p : Port) : Nat := p.missFactor * p.average.getD Config.nominalPeriod

/-- Table 12: the miss timer runs in PRIME and LOCKED. -/
def timerRuns (p : Port) : Bool := p.state = .prime || p.state = .locked

/-- R34: the ticks the miss timer has counted; none while it is idle. -/
def missElapsed (p : Port) (tick : Nat) : Option Nat :=
  if p.timerRuns then p.lastArrival.map fun a => tick - a.tick else none

/-- R34: the timer's comparison at a tick. -/
def missExceeded (p : Port) (tick : Nat) : Bool :=
  match p.missElapsed tick with
  | some e => p.missWindow < e
  | none => false

/-- R34: the first tick from `now` on at which the running timer expires; `now` itself goes by the D and M in force. -/
def expiryTick (p : Port) (now : Nat) : Option Nat :=
  if p.missExceeded now then some now
  else if p.timerRuns then p.lastArrival.map fun a => max (a.tick + p.nextTick.missWindow + 1) (now + 1)
  else none

/-- R33. -/
def emptyHistory (p : Port) : Port := { p with history := [], lastArrival := none }

/-- R25, R28, R29: the qualification window becomes idle. -/
def idleWindow (p : Port) : Port := { p with origin := none, windowCounter := 0, arrivalCounter := 0 }

/-- R31: the interval an arrival makes with the last recorded arrival, if any. -/
def intervalTo (p : Port) (tick : Nat) (sequence : Byte) : Option Word16 :=
  match p.lastArrival with
  | some a => if sequence = a.sequence + 1#8 then some (BitVec.ofNat 16 (min (tick - a.tick) 65535)) else none
  | none => none

/-- R31: the history with one more interval, at most eight. -/
def pushInterval (h : List Word16) (x : Word16) : List Word16 :=
  (if h.length < Config.historyDepth then h else h.drop 1) ++ [x]

/-- R31: the arrival is recorded. -/
def record (p : Port) (tick : Nat) (sequence : Byte) : Port :=
  { p with
    history := match p.intervalTo tick sequence with
      | some x => pushInterval p.history x
      | none => p.history
    lastArrival := some { tick := tick, sequence := sequence } }

/-- R23: entry to QUALIFY, from SEARCH or LOST. -/
def enterQualify (p : Port) (tick : Nat) (sequence : Byte) : Port :=
  { p with
    state := .qualify
    origin := some (if p.state = .lost then .lost else .search)
    windowCounter := p.window
    arrivalCounter := 0
    history := if p.state = .lost then [] else p.history
    lastArrival := some { tick := tick, sequence := sequence } }

/-- R24: one more arrival counted in the window, and recorded (R31). -/
def countArrival (p : Port) (tick : Nat) (sequence : Byte) : Port :=
  { p.record tick sequence with arrivalCounter := p.arrivalCounter + 1 }

/-- R26. -/
def tooFast (p : Port) : Bool := p.arrivalCounter = p.window + p.tolerance + 1 && 0 < p.windowCounter

/-- R28, R22, R33: a failed qualification returns the port to its origin. -/
def failQualification (p : Port) : Port :=
  match p.origin with
  | some .lost => { p.idleWindow with state := .lost, framer := p.framer.restartRun }
  | _ => { p.idleWindow.emptyHistory with state := .search, framer := p.framer.restartRun }

/-- R29: a passing window. -/
def enterPrime (p : Port) : Port := { p.idleWindow with state := .prime }

/-- R35, R22: entry to LOST from PRIME or LOCKED. -/
def enterLost (p : Port) : Port :=
  { p with state := .lost, store := p.store.flush, framer := p.framer.restartRun }

/-- R11, R33, R39, R41, R150: the operating state a disable or a restart gives up; the counters and settings stay. -/
def setBack (p : Port) (state : PortState) : Port :=
  { p.idleWindow.emptyHistory with
    state := state, framer := framerSetBack, store := p.store.flush, reassembly := none }

/-- R24: the window counter takes the boundary. -/
def countDown (p : Port) : Port :=
  { p with windowCounter := if p.state = .qualify then p.windowCounter - 1 else p.windowCounter, windowDue := false }

/-- R24, R25: a boundary that leaves the port so has completed the window. -/
def windowDone (p : Port) : Bool := p.state = .qualify && p.windowCounter = 0

/-- R25. -/
def windowPasses (p : Port) : Bool := p.window - p.tolerance ≤ p.arrivalCounter

/-- R149: the silence count takes the boundary. -/
def countSilence (p : Port) : Port :=
  { p with reassembly := p.reassembly.map fun b => { b with silence := b.silence + 1 }, silenceDue := false }

/-- R149: the silence count has reached the timeout. -/
def reassemblyExpired (p : Port) : Bool :=
  match p.reassembly with
  | some b => Config.reassemblyTimeout ≤ b.silence
  | none => false

/-- R45, R150: the port at a soft reset. -/
def softReset (p : Port) : Port :=
  { p with
    state := if p.enabled then .search else .disabled
    origin := none
    windowCounter := 0
    arrivalCounter := 0
    lastArrival := none
    history := []
    counters := zeroCounters
    windowDue := false
    silenceDue := false
    framer := framerSetBack
    store := p.store.softReset
    reassembly := none }

end Port

/-- Table 10: the details of QUALIFY_FAIL. -/
def detailSlow : Word16 := 1#16
def detailFast : Word16 := 2#16
def detailAlignment : Word16 := 3#16

/-- Table 10: the details of SLIP. -/
def detailDrop : Word16 := 1#16
def detailRepeat : Word16 := 2#16

namespace State

/-- R28: a qualification fails; a return to LOST makes the LOST condition hold again (R36). -/
def failQualification (s : State) (p : PortIdx) (detail : Word16) : State :=
  let s1 := ((s.updatePort p Port.failQualification).raise .qualifyFail (smallSubject p) detail).latch
    (alarmQualifyFail p)
  if s1.lostCondition p then s1.latch (alarmLost p) else s1

/-- R35: the port enters LOST. -/
def loseSource (s : State) (p : PortIdx) : State :=
  ((s.updatePort p Port.enterLost).raise .portLost (smallSubject p) 0#16).latch (alarmLost p)

/-- R34: the miss timer of the port has expired at the present tick. -/
def expireIfExceeded (s : State) (p : PortIdx) : State :=
  if s.ports[p].missExceeded s.timing.tick then s.loseSource p else s

/-- R60: a slip is reported by an event only if the port's SLIP alarm was clear, and latches the alarm. -/
def reportSlip (s : State) (p : PortIdx) (detail : Word16) : State :=
  if s.events.latched &&& alarmBit (alarmSlip p) = 0#17 then
    (s.latch (alarmSlip p)).raise .slip (smallSubject p) detail
  else s.latch (alarmSlip p)

def countPort (s : State) (p : PortIdx) (f : PortCounters → PortCounters) : State :=
  s.updatePort p fun x => { x with counters := f x.counters }

/-- R55: the store of the port appends an arrival's frame. -/
def appendFrame (s : State) (p : PortIdx) (r : FrameRecord) : State :=
  let s1 := s.updatePort p fun x => { x with store := x.store.append r }
  if s.ports[p].store.isFull then
    (s1.countPort p fun c => { c with slipDrops := saturatingInc c.slipDrops }).reportSlip p detailDrop
  else s1

/-- R57, R58: the store of the port takes the boundary. -/
def pickFrame (s : State) (p : PortIdx) : State :=
  let s1 := s.updatePort p fun x => { x with store := x.store.pick x.isLocked }
  if s.ports[p].store.wouldRepeat s.ports[p].isLocked then
    (s1.countPort p fun c => { c with slipRepeats := saturatingInc c.slipRepeats }).reportSlip p detailRepeat
  else s1

/-- R30: a PRIME port whose store holds C frames or more locks. -/
def lockIfPrimed (s : State) (p : PortIdx) : State :=
  if s.ports[p].primeCentre ≤ s.ports[p].store.fifo.length then
    (s.updatePort p fun x => { x with state := .locked }).raise .portLocked (smallSubject p) 0#16
  else s

/-- R25: the window is complete. -/
def completeWindow (s : State) (p : PortIdx) : State :=
  if s.ports[p].windowPasses then s.updatePort p Port.enterPrime else s.failQualification p detailSlow

/-- R24, R25: the qualification window takes the boundary, and the boundary that brings it to 0 completes it. -/
def takeWindow (s : State) (p : PortIdx) : State :=
  let s1 := s.updatePort p Port.countDown
  if s1.ports[p].windowDone then s1.completeWindow p else s1

/-- R24: the qualification window, once a boundary. -/
def ensureWindow (s : State) (p : PortIdx) : State := if s.ports[p].windowDue then s.takeWindow p else s

end State

end Sys2Proof.Machine
end

