-- ==== Sys2Proof/Machine/Reassembly.lean ====
section
/-! DEFINITION. Reassembly of fragments into messages, the length checks, the command queue's entry, and the answers a
reassembly buffer places (9.1, R152, R153, R156, R165). -/

namespace Sys2Proof.Machine

/-- R165: the details of MGMT_ERROR. -/
def detailFragment : Word16 := 1#16
def detailTimeout : Word16 := 2#16
def detailLength : Word16 := 3#16
def detailBusy : Word16 := 4#16

namespace Egress

/-- R154, R156: the response queue has room. -/
def hasRoom (e : Egress) : Bool := e.responses.length < Config.responseDepth

/-- R153, R156, R19: a response joins the tail; one placed for a disabled port is discarded. -/
def place (r : Response) (e : Egress) : Egress :=
  if e.enabled && e.hasRoom then { e with responses := e.responses ++ [r] } else e

end Egress

namespace State

/-- R165: a management counter increases and MGMT_ERROR is raised, at 65,535 too. -/
def mgmtError (s : State) (p : PortIdx) (detail : Word16) : State :=
  (s.countPort p fun c =>
    if detail = detailFragment then { c with fragmentErrors := saturatingInc c.fragmentErrors }
    else if detail = detailTimeout then { c with reassemblyTimeouts := saturatingInc c.reassemblyTimeouts }
    else if detail = detailLength then { c with lengthErrors := saturatingInc c.lengthErrors }
    else { c with busyDrops := saturatingInc c.busyDrops }).raise .mgmtError (smallSubject p) detail

/-- The port's reassembly buffer becomes as given; none is IDLE. -/
def setReassembly (s : State) (p : PortIdx) (b : Option PartialMessage) : State :=
  s.updatePort p fun x => { x with reassembly := b }

/-- R153: a BUSY or BAD_LENGTH answer; `dropDetail` names the counter increased if its queue is full. -/
def answerUnexecuted (s : State) (p : PortIdx) (bytes : List Byte) (status : Status) (dropDetail : Word16) : State :=
  let e := s.egress[p]
  if e.enabled && !e.hasRoom then s.mgmtError p dropDetail
  else s.updateEgress p (Egress.place
    { bytes := responseBytes (bytes.getD 1 0#8) (bytes.getD 2 0#8) status [], origin := .response })

/-- R152: a message of good length joins the command queue, or is answered BUSY. -/
def queueMessage (s : State) (p : PortIdx) (bytes : List Byte) : State :=
  if s.channel.queue.length < Config.commandDepth then
    s.updateChannel fun c => { c with queue := c.queue ++ [{ source := p, bytes := bytes }] }
  else s.answerUnexecuted p bytes .busy detailBusy

/-- R151: the length checks of a complete message. -/
def completeMessage (s : State) (p : PortIdx) (bytes : List Byte) : State :=
  let l := (bytes.getD 0 0#8).toNat
  if l < 3 then s.mgmtError p detailLength
  else if 64 < l || bytes.length < l || l + 2 < bytes.length then s.answerUnexecuted p bytes .badLength detailLength
  else s.queueMessage p (bytes.take l)

/-- R147, R148: the fragment is rejected and a partial message is given up. -/
def rejectFragment (s : State) (p : PortIdx) (detail : Word16) : State :=
  (s.setReassembly p none).mgmtError p detail

/-- R147: a FIRST or ONLY that finds a partial message discards it with a fragment error. -/
def dropPartial (s : State) (p : PortIdx) : State :=
  if s.ports[p].reassembly.isSome then s.rejectFragment p detailFragment else s

/-- Table 33: FIRST. -/
def takeFirst (s : State) (p : PortIdx) (index : Nat) (payload : List Byte) : State :=
  if index = 0 then
    (s.dropPartial p).setReassembly p (some { bytes := payload, expected := 1, silence := 0 })
  else s.rejectFragment p detailFragment

/-- Table 33: MIDDLE. -/
def takeMiddle (s : State) (p : PortIdx) (index : Nat) (payload : List Byte) : State :=
  match s.ports[p].reassembly with
  | some b =>
    if index = b.expected then
      s.setReassembly p (some { bytes := b.bytes ++ payload, expected := b.expected + 1, silence := 0 })
    else s.rejectFragment p detailFragment
  | none => s.rejectFragment p detailFragment

/-- Table 33: LAST. -/
def takeLast (s : State) (p : PortIdx) (index : Nat) (payload : List Byte) : State :=
  match s.ports[p].reassembly with
  | some b =>
    if index = b.expected then (s.setReassembly p none).completeMessage p (b.bytes ++ payload)
    else s.rejectFragment p detailFragment
  | none => s.rejectFragment p detailFragment

/-- Table 33: ONLY. -/
def takeOnly (s : State) (p : PortIdx) (index : Nat) (payload : List Byte) : State :=
  if index = 0 then ((s.dropPartial p).setReassembly p none).completeMessage p payload
  else s.rejectFragment p detailFragment

/-- R146 to R148: the buffer acts on an arrival's service field. -/
def takeFragment (s : State) (p : PortIdx) (tag : Byte) (payload : List Byte) : State :=
  let kind := tagKind tag
  let index := tagIndex tag
  if kind = 0 then s
  else if 5 ≤ kind then s.rejectFragment p detailFragment
  else if Config.lastFragmentIndex < index then s.rejectFragment p detailLength
  else if kind = 1 then s.takeFirst p index payload
  else if kind = 2 then s.takeMiddle p index payload
  else if kind = 3 then s.takeLast p index payload
  else s.takeOnly p index payload

/-- R149: the reassembly buffer takes the boundary, and the boundary that brings its silence count to 256 times it out. -/
def takeSilence (s : State) (p : PortIdx) : State :=
  let s1 := s.updatePort p Port.countSilence
  if s1.ports[p].reassemblyExpired then s1.rejectFragment p detailTimeout else s1

/-- R149: the silence count, once a boundary. -/
def ensureSilence (s : State) (p : PortIdx) : State := if s.ports[p].silenceDue then s.takeSilence p else s

end State

end Sys2Proof.Machine
end

