-- ==== Sys2Proof/Machine/Framing.lean ====
section
/-! DEFINITION. What the framer does with an examined frame (R4 to R9), and what an arrival does in the blocks that see it
(R7). -/

namespace Sys2Proof.Machine

/-- Table 3: the frame record a store keeps of a frame. -/
def frameRecord (f : LaneFrame) : FrameRecord :=
  { samples := Vector.ofFn (frameSample f), valid := frameValidMap f, sequence := frameSequence f }

namespace Framer

/-- R4: a valid candidate. -/
def confirm (f : Framer) (position : Nat) : Framer :=
  { f with state := .confirming, candidate := position, confirmCount := 1, position := position + Config.frameBits }

/-- R4: a candidate rejected; the search goes on one bit later. -/
def searchPast (f : Framer) (position : Nat) : Framer := { f with position := position + 1 }

/-- R5: the second valid frame of a candidate. -/
def confirmNext (f : Framer) : Framer :=
  { f with confirmCount := f.confirmCount + 1, position := f.position + Config.frameBits }

/-- R5: alignment is declared. -/
def declareAligned (f : Framer) : Framer :=
  { f.confirmNext with state := .aligned, missCount := 0, runCount := 3 }

/-- R5: the candidate is rejected. -/
def rejectCandidate (f : Framer) : Framer :=
  { f with state := .searching, confirmCount := 0, position := f.candidate + 1 }

/-- R6: a valid frame at the expected position. -/
def takeValid (f : Framer) : Framer :=
  { f with missCount := 0, runCount := min (f.runCount + 1) 3, position := f.position + Config.frameBits }

/-- R6: the marker present and the CRC not correct. -/
def takeCrcError (f : Framer) : Framer :=
  { f with missCount := 0, runCount := 0, position := f.position + Config.frameBits }

/-- R6: the first missing marker. -/
def takeMiss (f : Framer) : Framer :=
  { f with missCount := 1, runCount := 0, position := f.position + Config.frameBits }

/-- R8: alignment is lost; the search begins at the missing frame's first bit. -/
def loseAlignment (f : Framer) : Framer :=
  { f with state := .searching, missCount := 0, runCount := 0, confirmCount := 0, lastSequence := none }

/-- R9: the arrival does not follow the last one taken. -/
def sequenceGap (f : Framer) (sequence : Byte) : Bool :=
  match f.lastSequence with
  | some l => sequence ≠ l + 1#8
  | none => false

end Framer

namespace State

def updateFramer (s : State) (p : PortIdx) (f : Framer → Framer) : State :=
  s.updatePort p fun x => { x with framer := f x.framer }

/-- R9: the sequence check of an arrival. -/
def checkSequence (s : State) (p : PortIdx) (sequence : Byte) : State :=
  let s1 := s.updateFramer p fun x => { x with lastSequence := some sequence }
  if s.ports[p].framer.sequenceGap sequence then
    s1.countPort p fun c => { c with sequenceGaps := saturatingInc c.sequenceGaps }
  else s1

/-- R24, R26: an arrival in QUALIFY. -/
def qualifyArrival (s : State) (p : PortIdx) (sequence : Byte) : State :=
  let s1 := s.updatePort p fun x => x.countArrival s.timing.tick sequence
  if s1.ports[p].tooFast then s1.failQualification p detailFast else s1

/-- R31, R55: an arrival in PRIME or LOCKED is recorded and its frame appended. -/
def storeArrival (s : State) (p : PortIdx) (r : FrameRecord) : State :=
  (s.updatePort p fun x => x.record s.timing.tick r.sequence).appendFrame p r

/-- R23, R24, R30, R36: the port's state machine takes an arrival; `reachedThree` says that it brought the run count to 3. -/
def portArrival (s : State) (p : PortIdx) (r : FrameRecord) (reachedThree : Bool) : State :=
  match s.ports[p].state with
  | .search | .lost =>
    if reachedThree then s.updatePort p fun x => x.enterQualify s.timing.tick r.sequence else s
  | .qualify => s.qualifyArrival p r.sequence
  | .prime => (s.storeArrival p r).lockIfPrimed p
  | .locked => s.storeArrival p r
  | .disabled => s

/-- R7: an arrival is seen by the sequence check, the port and its store, and the reassembly buffer. An event of the port or
the store comes before the buffer's (R167 leaves it open; log entry 17). -/
def takeArrival (s : State) (p : PortIdx) (f : LaneFrame) (reachedThree : Bool) : State :=
  ((s.checkSequence p (frameSequence f)).portArrival p (frameRecord f) reachedThree).takeFragment p (frameTag f)
    (framePayload f)

/-- R4: a candidate is examined. -/
def examineCandidate (s : State) (p : PortIdx) (position : Nat) (f : LaneFrame) : State :=
  if crcCorrect f then s.updateFramer p (·.confirm position) else s.updateFramer p (·.searchPast position)

/-- R5: the frame at the expected position of a candidate is examined. -/
def examineConfirming (s : State) (p : PortIdx) (f : LaneFrame) : State :=
  if frameValid f then
    if s.ports[p].framer.confirmCount + 1 < 3 then s.updateFramer p Framer.confirmNext
    else (s.updateFramer p Framer.declareAligned).takeArrival p f true
  else s.updateFramer p Framer.rejectCandidate

/-- R6, R7: a valid frame taken while ALIGNED. -/
def examineArrival (s : State) (p : PortIdx) (f : LaneFrame) : State :=
  (s.updateFramer p Framer.takeValid).takeArrival p f (s.ports[p].framer.runCount = 2)

/-- R6, R10: a frame with its marker and a bad CRC. -/
def examineCrcError (s : State) (p : PortIdx) : State :=
  (s.updateFramer p Framer.takeCrcError).countPort p fun c => { c with crcErrors := saturatingInc c.crcErrors }

/-- R8, R27, R35: alignment is lost, and the port's state machine is told. -/
def loseAlignment (s : State) (p : PortIdx) : State :=
  let s1 := (s.updateFramer p Framer.loseAlignment).countPort p fun c =>
    { c with alignmentLosses := saturatingInc c.alignmentLosses }
  match s.ports[p].state with
  | .qualify => s1.failQualification p detailAlignment
  | .prime | .locked => s1.loseSource p
  | .search | .lost | .disabled => s1

/-- R6, R8: an expected position without the marker. -/
def examineMissing (s : State) (p : PortIdx) : State :=
  if s.ports[p].framer.missCount = 0 then s.updateFramer p Framer.takeMiss else s.loseAlignment p

end State

end Sys2Proof.Machine
end

