-- ==== Sys2Proof/Machine/Transition.lean ====
section
/-! DEFINITION. The transition engine: availability and equality of mix lists, retarget requests, the settle check and the
step (R68, R96 to R110, R113). -/

namespace Sys2Proof.Machine

/-- R68: two lists hold the same terms, whatever their order. -/
def listsEqual (a b : MixList) : Bool := a.length = b.length && a.all fun t => b.contains t

/-- R98: the length a profile gives a phase. -/
def Profile.length (p : Profile) : Phase → Nat
  | .steady => 0
  | .fadeOut => p.fadeOut.val
  | .gap => p.gap.val
  | .fadeIn => p.fadeIn.val
  | .settle => p.settle.val

/-- R100: the level of a phase, its length and its position. -/
def levelOf (phase : Phase) (length position : Nat) : Nat :=
  match phase with
  | .steady => Config.fullLevel
  | .fadeOut => Config.fullLevel * (length - position) / length
  | .gap => 0
  | .fadeIn => Config.fullLevel * position / length
  | .settle => Config.fullLevel

/-- R106: the periods of fade-out left to a slot reversed at a level. -/
def reversalPeriods (level fadeOut : Nat) : Nat := (level * fadeOut + (Config.fullLevel - 1)) / Config.fullLevel

namespace SlotContext

/-- The slot stands in a phase at position 1 of its latched length. -/
def stand (c : SlotContext) (phase : Phase) (length : Nat) : SlotContext :=
  { c with phase := phase, phaseLength := length, phasePosition := 1 }

/-- R99: reaching STEADY. -/
def enterSteady (c : SlotContext) : SlotContext := { c with phase := .steady, phaseLength := 0, phasePosition := 0 }

/-- R99: SETTLE is entered, or passed at once at length 0. -/
def enterSettle (c : SlotContext) (p : Profile) : SlotContext :=
  if p.settle.val = 0 then c.enterSteady else c.stand .settle p.settle.val

/-- R99: the sounding list becomes the target list; FADE_IN is entered, or passed at once at length 0. -/
def enterFadeIn (c : SlotContext) (p : Profile) : SlotContext :=
  let d := { c with sounding := c.target }
  if p.fadeIn.val = 0 then d.enterSettle p else d.stand .fadeIn p.fadeIn.val

/-- R99: GAP is entered, or passed at once at length 0. -/
def enterGap (c : SlotContext) (p : Profile) : SlotContext :=
  if p.gap.val = 0 then c.enterFadeIn p else c.stand .gap p.gap.val

/-- R99: a completed phase passes to the next of the order. -/
def nextPhase (c : SlotContext) (p : Profile) : SlotContext :=
  match c.phase with
  | .steady => c
  | .fadeOut => c.enterGap p
  | .gap => c.enterFadeIn p
  | .fadeIn => c.enterSettle p
  | .settle => c.enterSteady

/-- R99: the phase of this context ends at its next step. -/
def phaseEnds (c : SlotContext) : Bool := c.phase ≠ .steady && c.phaseLength ≤ c.phasePosition

/-- R99: where the step leaves the slot, before its level is fixed. -/
def advance (c : SlotContext) (p : Profile) : SlotContext :=
  if c.phase = .steady then c
  else if c.phasePosition < c.phaseLength then { c with phasePosition := c.phasePosition + 1 }
  else c.nextPhase p

/-- R100: the level of the period the step makes. -/
def fixLevel (c : SlotContext) : SlotContext :=
  { c with level := levelOf c.phase c.phaseLength c.phasePosition }

/-- R99, R100. -/
def step (c : SlotContext) (p : Profile) : SlotContext := (c.advance p).fixLevel

/-- R108: the step brings the slot into STEADY from another phase. -/
def stepFinishes (c : SlotContext) (p : Profile) : Bool := c.phase ≠ .steady && (c.advance p).phase = .steady

/-- R98, R99: the step passes to a phase whose length it reads from the governing profile. -/
def stepEnters (c : SlotContext) : Bool := c.phaseEnds && c.phase ≠ .settle

/-- R101: the list a request is compared with. -/
def course (c : SlotContext) : MixList := if c.phase = .steady then c.sounding else c.target

/-- R101: a request that changes nothing. -/
def requestIdle (c : SlotContext) (target : MixList) : Bool := listsEqual target c.course

/-- R103, R107: FADE_OUT from full, to a new target. -/
def startFadeOut (c : SlotContext) (target : MixList) (index : Fin 8) (p : Profile) : SlotContext :=
  { c with phase := .fadeOut, target := target, governing := index, phaseLength := p.fadeOut.val, phasePosition := 0 }

/-- R104, R105: the course changes and the phase in progress goes on. -/
def changeCourse (c : SlotContext) (target : MixList) (index : Fin 8) : SlotContext :=
  { c with target := target, governing := index }

/-- R106: a fade-in is reversed from the level it had reached. -/
def reverse (c : SlotContext) (target : MixList) (index : Fin 8) (p : Profile) : SlotContext :=
  { c with phase := .fadeOut, target := target, governing := index, phaseLength := p.fadeOut.val,
           phasePosition := p.fadeOut.val - reversalPeriods c.level p.fadeOut.val }

/-- R101 to R107, Table 25: the context a request leaves. -/
def request (c : SlotContext) (target : MixList) (index : Fin 8) (p : Profile) : SlotContext :=
  if c.requestIdle target then c
  else
    match c.phase with
    | .steady => c.startFadeOut target index p
    | .fadeOut => c.changeCourse target index
    | .gap => c.changeCourse target index
    | .fadeIn => c.reverse target index p
    | .settle => c.startFadeOut target index p

/-- R103, R106, R107: the request enters FADE_OUT, and so latches a length (R98). -/
def requestEnters (c : SlotContext) (target : MixList) : Bool :=
  !c.requestIdle target && c.phase ≠ .fadeOut && c.phase ≠ .gap

/-- R108: the request finds the slot in transition and changes its course. -/
def requestSupersedes (c : SlotContext) (target : MixList) : Bool := !c.requestIdle target && c.phase ≠ .steady

/-- R109: a failed settle leaves the slot STEADY on its sounding list. -/
def failSettle (c : SlotContext) : SlotContext := { c.enterSteady with level := Config.fullLevel }

/-- R112: the context at a soft reset. -/
def softReset (r : RouteRecord) : SlotContext :=
  { phase := .steady, sounding := r.primary, target := r.primary, level := Config.fullLevel, phaseLength := 0,
    phasePosition := 0, governing := r.profile }

end SlotContext

namespace State

/-- R113: every term of the list names a slot of a LOCKED port. -/
def available (s : State) (l : MixList) : Bool := l.all fun t => s.ports[laneOf t.source].state = .locked

def updateContext (s : State) (i : SlotIdx) (f : SlotContext → SlotContext) : State :=
  s.updateSlot i fun x => { x with context := f x.context }

def updateDue (s : State) (i : SlotIdx) (f : SlotDue → SlotDue) : State :=
  s.updateSlot i fun x => { x with due := f x.due }

/-- R109: the settle check of a slot. The failed settle is the first stage of the making of its context (R97). -/
def checkSettle (s : State) (i : SlotIdx) : State :=
  let c := s.slots[i].context
  if c.phase = .settle && !s.available c.sounding then
    (s.updateSlot i fun x => { x with settleFailed := true }).raise .settleFail i 0#16
  else s

/-- R109: the settle check, once a boundary. -/
def ensureCheck (s : State) (i : SlotIdx) : State :=
  if s.slots[i].due.check then (s.checkSettle i).updateDue i fun d => { d with check := false } else s

/-- R101, R102: a retarget request is issued, and waits for the making of the slot's context. -/
def issueRequest (s : State) (i : SlotIdx) (target : MixList) (profile : Fin 8) : State :=
  s.updateSlot i fun x => { x with requests := x.requests ++ [{ target := target, profile := profile }] }

/-- R97, stage 1: a failed settle check takes the slot out of SETTLE. -/
def applySettle (s : State) (i : SlotIdx) : State :=
  s.updateSlot i fun x =>
    { x with
      context := if x.settleFailed && x.context.phase = .settle then x.context.failSettle else x.context
      settleFailed := false }

/-- R101 to R108: a retarget request taken against the context as it stands. -/
def takeRequest (i : SlotIdx) (s : State) (r : Request) : State :=
  let c := s.slots[i].context
  let s1 := s.updateContext i fun x => x.request r.target r.profile s.latching[r.profile]
  let s2 := s1.markEntered r.profile (c.requestEnters r.target)
  if c.requestSupersedes r.target then s2.raise .transitionSuperseded i 0#16 else s2

/-- R97, stage 2, R102: the requests for the slot, one after another in the order in which they were issued. -/
def takeRequests (s : State) (i : SlotIdx) : State :=
  (s.slots[i].requests.foldl (takeRequest i) s).updateSlot i fun x => { x with requests := [] }

/-- R99, R100, R108: the step of a slot. -/
def stepSlot (s : State) (i : SlotIdx) : State :=
  let c := s.slots[i].context
  let p := s.latching[c.governing]
  let s1 := (s.updateContext i fun x => x.step p).markEntered c.governing c.stepEnters
  if c.stepFinishes p then s1.raise .transitionDone i 0#16 else s1

/-- R97: the three stages that make a slot's context for the period in progress. -/
def makeContext (s : State) (i : SlotIdx) : State := ((s.applySettle i).takeRequests i).stepSlot i

end State

end Sys2Proof.Machine
end

