-- ==== Sys2Proof/Machine/Protect.lean ====
section
/-! DEFINITION. The protection unit: the evaluation of a slot, the entry-replaced notice, and a commit taking effect
(07_source_protection.md, R85 to R87). -/

namespace Sys2Proof.Machine

/-- R114: the list of a record that a protection record selects. -/
def RouteRecord.list (r : RouteRecord) : ListSelect → MixList
  | .primary => r.primary
  | .backup => r.backup.getD []

/-- R126, R117 to R123: a change of the selected field clears the hold, the timer and the double-loss flag. -/
def Protection.moved (select : ListSelect) : Protection :=
  { selected := select, held := false, wtrTimer := none, doubleLoss := false }

/-- R120: the WTR timer after one boundary of waiting. -/
def wtrNext (timer : Option Nat) (wtr : Word16) : Nat :=
  match timer with
  | none => wtr.toNat
  | some t => t - 1

namespace State

def updateProtection (s : State) (i : SlotIdx) (f : Protection → Protection) : State :=
  s.updateSlot i fun x => { x with protection := f x.protection }

/-- R115: a request of the protection unit, naming the list now selected under the protect profile. -/
def protectRequest (s : State) (i : SlotIdx) : State :=
  let r := s.routes[i].active
  s.issueRequest i (r.list s.slots[i].protection.selected) r.protectProfile

/-- R117, R119, R120: the unit moves the slot, issues its request, and raises the event that names the move. The request is
taken at the making of the slot's context, so an event it raises follows this one (log entry 17). -/
def moveSlot (s : State) (i : SlotIdx) (select : ListSelect) (kind : EventKind) : State :=
  ((s.updateProtection i fun _ => Protection.moved select).protectRequest i).raise kind i 0#16

/-- R121: the selected list is found available. -/
def stayAvailable (s : State) (i : SlotIdx) : State :=
  s.updateProtection i fun x => { x with wtrTimer := none, doubleLoss := false }

/-- R118, R119, R121, R122: both lists are not available. -/
def doubleLose (s : State) (i : SlotIdx) : State :=
  let s1 := (s.updateProtection i fun x => { x with wtrTimer := none, doubleLoss := true }).latch alarmDoubleLoss
  if s.slots[i].protection.doubleLoss then s1 else s1.raise .doubleLoss i 0#16

/-- R120: the three conditions under which a slot on an available backup waits to restore. -/
def waitsToRestore (s : State) (i : SlotIdx) : Bool :=
  s.available s.routes[i].active.primary && s.routes[i].active.revertMode = .revert && !s.slots[i].protection.held

/-- R120: the WTR timer after this boundary, where the slot waits. -/
def restoreCount (s : State) (i : SlotIdx) : Nat := wtrNext s.slots[i].protection.wtrTimer s.routes[i].active.wtr

/-- R120: a slot on its backup whose backup is available. -/
def restoreSlot (s : State) (i : SlotIdx) : State :=
  if s.waitsToRestore i then
    if s.restoreCount i = 0 then s.moveSlot i .primary .revert
    else s.updateProtection i fun x => { x with wtrTimer := some (s.restoreCount i), doubleLoss := false }
  else s.stayAvailable i

/-- R116, Table 27: the evaluation of a slot. A record that selects BACKUP without a backup list has no row there. -/
def evaluateSlot (s : State) (i : SlotIdx) : State :=
  let r := s.routes[i].active
  match s.slots[i].protection.selected, r.backup with
  | .primary, none =>
    if s.available r.primary then s.stayAvailable i else s.updateProtection i fun x => { x with wtrTimer := none }
  | .primary, some b =>
    if s.available r.primary then s.stayAvailable i
    else if s.available b then s.moveSlot i .backup .failover
    else s.doubleLose i
  | .backup, some b =>
    if s.available b then s.restoreSlot i
    else if s.available r.primary then s.moveSlot i .primary .forcedRevert
    else s.doubleLose i
  | .backup, none => s

/-- R86, R123: the list a commit's notice selects. -/
def noticeSelect (s : State) (r : RouteRecord) : ListSelect :=
  match r.backup with
  | some b => if !s.available r.primary && s.available b then .backup else .primary
  | none => .primary

/-- R85: the staging record becomes the active record and the flag clears. -/
def activateEntry (s : State) (i : SlotIdx) : State :=
  s.updateRoute i fun e => { e with active := e.staging, dirty := false }

/-- R85, R86: one entry replaced, and its slot handed on. -/
def replaceEntry (s : State) (i : SlotIdx) : State :=
  (s.activateEntry i).updateDue i fun d => { d with notice := true }

/-- R80: a lane mask includes the lane of a slot. -/
def inMask (mask : BitVec 4) (i : SlotIdx) : Bool := mask.getLsbD (laneOf i).val

/-- R84, R85: the dirty entries of the masked lanes. -/
def dirtyIn (s : State) (mask : BitVec 4) : List SlotIdx :=
  (List.finRange 64).filter fun i => inMask mask i && s.routes[i].dirty

/-- R85 to R87: the commit unit's own work where the pending commit takes effect. The protection unit takes each slot's
notice when it does that slot's work (R124). DESIGN CHOICE: COMMIT_DONE is raised before any of these notices, so it comes
before the events of the slots, and before an event of another block that falls between two notices, a PORT_LOST say, where
R167 allows either order (log entries 11, 17). -/
def takeCommit (s : State) (c : PendingCommit) : State :=
  let dirty := s.dirtyIn c.mask
  ((dirty.foldl replaceEntry s).raise .commitDone 0 (BitVec.ofNat 16 dirty.length)).setPendingCommit none

/-- R85: the pending commit whose effective period has just begun. -/
def commitDue (s : State) : Option PendingCommit :=
  match s.pendingCommit with
  | some c => if s.timing.atBoundary && c.effective = s.timing.periodCounter then some c else none
  | none => none

/-- R85: the commit unit's work of the boundary in progress. -/
def takeCommitIfDue (s : State) : State :=
  match s.commitDue with
  | some c => s.takeCommit c
  | none => s

/-- R64: a commit due at the boundary in progress replaces this slot's entry. -/
def commitReplaces (s : State) (i : SlotIdx) : Bool := s.commitDue.any fun c => i ∈ s.dirtyIn c.mask

/-- R64, R116: a slot's work for the period goes by the record a commit has made active for it. -/
def commitFor (s : State) (i : SlotIdx) : State := if s.commitReplaces i then s.takeCommitIfDue else s

/-- R86, R123: the entry-replaced notice, and the commit's request for the list it selects. -/
def takeNotice (s : State) (i : SlotIdx) : State :=
  let r := s.routes[i].active
  let select := s.noticeSelect r
  ((s.updateProtection i fun _ => Protection.moved select).issueRequest i (r.list select) r.profile).updateDue i fun d =>
    { d with notice := false }

/-- R123: the notice, once for each replaced entry. -/
def ensureNotice (s : State) (i : SlotIdx) : State := if s.slots[i].due.notice then s.takeNotice i else s

/-- R116: the evaluation, once a boundary. -/
def ensureEvaluation (s : State) (i : SlotIdx) : State :=
  if s.slots[i].due.protect then (s.evaluateSlot i).updateDue i fun d => { d with protect := false } else s

/-- R116, R123, R124: the protection unit's work for a slot, the notice and then the evaluation, on one reading of the
ports. -/
def ensureProtect (s : State) (i : SlotIdx) : State := ((s.commitFor i).ensureNotice i).ensureEvaluation i

/-- R85 to R87, R123: the pending commit takes effect, and the protection unit does its work for each replaced slot. -/
def commitTakesEffect (s : State) : State :=
  match s.commitDue with
  | some c => (s.dirtyIn c.mask).foldl ensureProtect (s.takeCommit c)
  | none => s

end State

end Sys2Proof.Machine
end

