-- ==== Sys2Proof/Machine/Mixer.lean ====
section
/-! DEFINITION. The mixer: output samples, output slot-valid flags, clip and peak metering, and the level monitors
(08_mixing_metering_and_egress_samples.md), with the order in which a slot's works at a boundary depend on one another. -/

namespace Sys2Proof.Machine

/-- R130, R145: the frame the mixer reads for a port in the period in progress: the assigned frame, or the silent frame where
that was assigned before the soft reset of its boundary (log entry 19). -/
def ElasticStore.heard (st : ElasticStore) : FrameRecord := if st.hushed then silentFrame else st.assigned

/-- R130: what a term reads from the frame of its source's port. -/
def State.readSource (s : State) (i : SlotIdx) : Int :=
  let f := s.ports[laneOf i].store.heard
  if f.valid.getLsbD (slotInLane i).val then f.samples[slotInLane i].toInt else 0

/-- R131, step 1: the product of a term. -/
def termProduct (t : Term) (sample : Int) : Int := if t.invert then -(sample * t.gain.toNat) else sample * t.gain.toNat

/-- R131, step 2: the exact sum of the products. -/
def State.mixSum (s : State) (l : MixList) : Int := (l.map fun t => termProduct t (s.readSource t.source)).sum

/-- R131, step 3: one division, rounded toward minus infinity. -/
def State.mixValue (s : State) (l : MixList) (level : Nat) : Int := (s.mixSum l * level) / Config.mixDivisor

def sampleMax : Int := 8388607
def sampleMin : Int := -8388608

/-- R132. -/
def saturate (v : Int) : Int := if sampleMax < v then sampleMax else if v < sampleMin then sampleMin else v

/-- R132: saturation changed the value. -/
def clips (v : Int) : Bool := sampleMax < v || v < sampleMin

/-- R133. -/
def slotValid (c : SlotContext) : Bool := !((c.phase = .steady || c.phase = .settle) && c.sounding.isEmpty)

/-- R136: the magnitude of a sample. -/
def magnitude (x : Sample) : Nat := x.toInt.natAbs

/-- R135, R136: the meters after one period. -/
def Meters.take (clipped : Bool) (mag : Nat) (m : Meters) : Meters :=
  { clipCounter := if clipped then saturatingInc m.clipCounter else m.clipCounter
    clipFlag := m.clipFlag || clipped
    peak := max m.peak mag }

namespace Monitor

/-- R140, R141: the crossing a monitor holds is below the threshold in every state where it counts. -/
def counts (m : Monitor) (mag : Nat) : Bool :=
  mag < m.threshold && (if m.mode = .above then m.state = .over else m.state = .under)

/-- R140, R141: the monitor's run count reaches its hold in this period. -/
def holdReached (m : Monitor) (mag : Nat) : Bool := m.counts mag && m.hold ≤ m.runCount + 1

/-- R140, R141: the period at or above the threshold that changes the state at once. -/
def crosses (m : Monitor) (mag : Nat) : Bool :=
  m.threshold ≤ mag && (if m.mode = .above then m.state = .under else m.state = .over)

/-- The other state. -/
def flipped (m : Monitor) : MonitorState := if m.state = .under then .over else .under

/-- R140, R141: the monitor after its evaluation of a period. -/
def evaluate (m : Monitor) (mag : Nat) : Monitor :=
  if m.holdReached mag || m.crosses mag then { m with state := m.flipped, runCount := 0, evalDue := false }
  else if m.counts mag then { m with runCount := m.runCount + 1, evalDue := false }
  else { m with runCount := 0, evalDue := false }

/-- R140, R141: the event a change of state raises, named by the state entered. -/
def changeEvent (m : Monitor) : EventKind := if m.state = .under then .levelOver else .levelUnder

/-- R145: the monitor at a soft reset. -/
def softReset (m : Monitor) : Monitor := { m with state := .under, runCount := 0, evalDue := true }

end Monitor

namespace State

/-- R130 to R133: the output of a slot for the period in progress. -/
def slotOutput (s : State) (i : SlotIdx) : OutputSample :=
  let c := s.slots[i].context
  { sample := BitVec.ofInt 24 (saturate (s.mixValue c.sounding c.level)), valid := slotValid c }

/-- R132: the slot's sample for the period in progress is clipped. -/
def slotClips (s : State) (i : SlotIdx) : Bool :=
  let c := s.slots[i].context
  clips (s.mixValue c.sounding c.level)

/-- R130 to R136: the output sample of a slot is computed and metered. -/
def mixSlot (s : State) (i : SlotIdx) : State :=
  let out := s.slotOutput i
  let s1 := s.updateSlot i fun x => { x with output := out, meters := x.meters.take (s.slotClips i) (magnitude out.sample) }
  if s.slotClips i then
    let s2 := s1.latch alarmClip
    if s.slots[i].meters.clipFlag then s2 else s2.raise .clip i 0#16
  else s1

/-- R57, R58: the pick of a store, once a boundary. -/
def ensurePick (s : State) (p : PortIdx) : State := if s.ports[p].store.pickDue then s.pickFrame p else s

/-- R130: the list has a term that reads the store of this port. -/
def reads (l : MixList) (p : PortIdx) : Bool := l.any fun t => laneOf t.source = p

/-- R130: the picks of the stores a list's terms read, the lowest port first, whatever the order of the terms (R66, log
entry 17). -/
def ensurePicks (s : State) (l : MixList) : State := forEach 4 (fun p s => if reads l p then ensurePick s p else s) s

/-- R97: the making of a slot's context, once a boundary, after its settle check and the protection unit's work. DESIGN CHOICE:
so the slot's SETTLE_FAIL and its protection event enter the queue before its TRANSITION_SUPERSEDED or TRANSITION_DONE, where
R167 allows any order of different blocks (log entry 17). -/
def ensureStep (s : State) (i : SlotIdx) : State :=
  if s.slots[i].due.transition then
    (((s.ensureCheck i).ensureProtect i).makeContext i).updateDue i fun d => { d with transition := false }
  else s

/-- R130: the slot's output sample and its metering, after the picks of the stores its sounding list reads. -/
def mixPicked (s : State) (i : SlotIdx) : State :=
  ((s.ensurePicks s.slots[i].context.sounding).mixSlot i).updateDue i fun d => { d with mix := false }

/-- R137: the metering of a slot, once a boundary, after the making of its context. DESIGN CHOICE: so every event of the
slot's check, protection work and making comes before its CLIP, where R167 allows any order (log entry 17). -/
def ensureMix (s : State) (i : SlotIdx) : State := if s.slots[i].due.mix then (s.ensureStep i).mixPicked i else s

/-- The magnitude a monitor evaluates. -/
def subjectMagnitude (s : State) (m : Fin 4) : Nat := magnitude s.slots[s.monitors[m].subject].output.sample

/-- R140 to R142: the evaluation of a monitor. -/
def evaluateMonitor (s : State) (m : Fin 4) : State :=
  let x := s.monitors[m]
  let mag := s.subjectMagnitude m
  let s1 := s.updateMonitor m fun x => if x.enabled then x.evaluate mag else { x with evalDue := false }
  if x.enabled && (x.holdReached mag || x.crosses mag) then s1.raise x.changeEvent (smallSubject m) 0#16 else s1

/-- R140: the evaluation, once a boundary, after its subject's sample. DESIGN CHOICE: so its event comes after every event of
the subject's works, where R167 allows any order (log entry 17). -/
def ensureMonitor (s : State) (m : Fin 4) : State :=
  if s.monitors[m].evalDue then (s.ensureMix s.monitors[m].subject).evaluateMonitor m else s

end State

end Sys2Proof.Machine
end

