-- ==== Sys2Proof/Machine/Transmit.lean ====
section
/-! DEFINITION. The service transmitters and the egress frames (R17, R18, R156 to R158, R173). -/

namespace Sys2Proof.Machine

namespace Sending

/-- R157: every fragment of the message has been supplied. -/
def exhausted (x : Sending) : Bool := fragmentCount x.bytes.length ≤ x.next

end Sending

namespace Egress

/-- R157: at a boundary the transmitter has not taken, a message whose last fragment rode in the frame before is fully
sent. -/
def fullySent (e : Egress) : Option Sending :=
  match e.transmitter with
  | some x => if e.serviceDue && x.exhausted then some x else none
  | none => none

/-- R156, R157: the head of the response queue becomes the message being sent. -/
def pickResponse (e : Egress) : Egress :=
  match e.responses with
  | r :: rest => { e with responses := rest, transmitter := some { bytes := r.bytes, next := 0, origin := r.origin } }
  | [] => e

/-- R157: the field the transmitter supplies. -/
def supply (e : Egress) : ServiceField :=
  match e.transmitter with
  | some x => fragmentOf x.bytes x.next
  | none => idleField

/-- R157: the field is supplied for the frame, and the index of the next fragment increases by 1. -/
def serve (e : Egress) : Egress :=
  { e with
    transmitter := e.transmitter.map fun x => { x with next := x.next + 1 }
    field := e.supply
    serviceDue := false }

/-- R157, R19: a disabled port sends no frame, so its transmitter supplies no field. -/
def pass (e : Egress) : Egress := { e with serviceDue := false }

end Egress

namespace State

/-- R174, R164: what a fully sent message brings about, by what it is. -/
def messageEffect (s : State) : MessageOrigin → State
  | .response => s
  | .softReset => s.updateChannel fun c => { c with processor := .resetDue }
  | .report n => s.updateEvents (EventUnit.reportSent n)

/-- R157: a message fully sent at the boundary in progress leaves its transmitter IDLE. -/
def completeSending (s : State) (e : PortIdx) : State :=
  match s.egress[e].fullySent with
  | some x => (s.updateEgress e fun y => { y with transmitter := none }).messageEffect x.origin
  | none => s

/-- R157, R173: the report offered to a transmitter that finds no response, on the control port's egress alone. -/
def pickReport (s : State) (e : PortIdx) : State :=
  match s.events.offered with
  | some r =>
    if s.channel.control = e then
      (s.updateEgress e fun y =>
        { y with transmitter := some { bytes := reportBytes r, next := 0, origin := .report r.sequence } }).updateEvents
        (EventUnit.beginTransmission r.sequence)
    else s
  | none => s

/-- R157: an IDLE transmitter picks a message. -/
def pickMessage (s : State) (e : PortIdx) : State :=
  if s.egress[e].transmitter.isSome then s
  else if s.egress[e].responses.isEmpty then s.pickReport e
  else s.updateEgress e Egress.pickResponse

/-- R133, R18: the slot-valid map of an egress port. -/
def egressValidMap (s : State) (e : PortIdx) : Word16 :=
  (List.finRange 16).foldl (fun w k => if s.slots[slotIndex e k].output.valid then w ||| BitVec.twoPow 16 k.val else w) 0#16

/-- R134, R18: the samples of an egress port. -/
def egressSamples (s : State) (e : PortIdx) : Vector Sample 16 :=
  Vector.ofFn fun k => s.slots[slotIndex e k].output.sample

/-- R18: frame k of an egress port. -/
def egressFrame (s : State) (e : PortIdx) : LaneFrame :=
  buildFrame (s.timing.periodCounter.setWidth 8) (s.egressValidMap e) s.egress[e].field (s.egressSamples e)

/-- R157: the transmitter takes the boundary: a message fully sent leaves it, it picks where it is IDLE, and it supplies the
field of the frame. -/
def takeTransmitter (s : State) (e : PortIdx) : State :=
  if s.egress[e].enabled then ((s.completeSending e).pickMessage e).updateEgress e Egress.serve
  else s.updateEgress e Egress.pass

/-- R157: the transmitter's turn, once a boundary. -/
def ensureTransmitter (s : State) (e : PortIdx) : State := if s.egress[e].serviceDue then s.takeTransmitter e else s

/-- R18, R19: the lane carries frame k, or is idle while the port is disabled. -/
def sendFrame (s : State) (e : PortIdx) : State :=
  let f := s.egressFrame e
  s.updateEgress e fun y => { y with lane := if y.enabled then some f else none, frameDue := false }

/-- R134: the 16 output samples of an egress port. -/
def ensureMixes (s : State) (e : PortIdx) : State := forEach 16 (fun k s => ensureMix s (slotIndex e k)) s

/-- R18: the frame of an egress port, once a boundary, after its 16 output samples and its service field. -/
def ensureFrame (s : State) (e : PortIdx) : State :=
  if s.egress[e].frameDue then ((s.ensureMixes e).ensureTransmitter e).sendFrame e else s

/-- R157: the report a transmitter was sending is abandoned; its record stays UNSENT. -/
def abandonSending (s : State) (e : PortIdx) : State :=
  match s.egress[e].transmitter with
  | some x =>
    match x.origin with
    | .report n => s.updateEvents (EventUnit.abandonTransmission n)
    | .response | .softReset => s
  | none => s

end State

end Sys2Proof.Machine
end

