-- ==== Sys2Proof/Machine/Processor.lean ====
section
/-! DEFINITION. The command processor (R154, R155): its arbiter, the check of authority, and the response to a command. -/

namespace Sys2Proof.Machine

/-- Table 7: who may send a command. -/
inductive Authority where
  | anyPort
  | controlOnly
  | clearOnly
  deriving DecidableEq, Repr

/-- R155: a command that needs the control port: one that changes state, or a read that asks to clear. -/
def needsControl (a : Authority) (m : Message) : Bool :=
  match a with
  | .anyPort => false
  | .controlOnly => true
  | .clearOnly => m.bytes[4]? = some 1#8

/-- The oldest entry whose reply has room, and the queue without it. -/
def takeRoomy (room : Message → Bool) : List Message → Option (Message × List Message)
  | [] => none
  | m :: rest =>
    if room m then some (m, rest)
    else
      match takeRoomy room rest with
      | some (x, others) => some (x, m :: others)
      | none => none

/-- What a command's owning rule makes of it: the state, the status, the results and what the response is. -/
structure CommandResult where
  state : State
  status : Status
  results : List Byte
  origin : MessageOrigin

namespace State

/-- R154: the processor's arbiter. -/
def arbiter (s : State) : Option (Message × List Message) :=
  takeRoomy (fun m => s.egress[m.source].hasRoom) s.channel.queue

/-- R154, R163: the processor looks once at a boundary, and not while a soft reset is awaited. -/
def processorReady (s : State) : Bool :=
  s.timing.atBoundary && s.channel.turn && s.channel.processor = .executing

/-- R154: the processor has looked at the boundary in progress; what it has not taken is considered at the next. -/
def endTurn (s : State) : State := s.updateChannel fun c => { c with turn := false }

/-- R154: the processor's choice, where it looks now. -/
def choice (s : State) : Option Message := if s.processorReady then s.arbiter.map (·.1) else none

/-- R154: the state in which the processor has taken this message, where its arbiter takes it now. -/
def takeCommand (s : State) (m : Message) : Option State :=
  if s.processorReady then
    match s.arbiter with
    | some (x, rest) => if x = m then some (s.updateChannel fun c => { c with queue := rest, turn := false }) else none
    | none => none
  else none

/-- R155: the response joins the queue of the egress port the command's ingress port shares its index with. -/
def respond (s : State) (m : Message) (status : Status) (results : List Byte) (origin : MessageOrigin) : State :=
  s.updateEgress m.source (Egress.place
    { bytes := responseBytes (messageCode m) (messageTag m) status results, origin := origin })

end State

/-- An answer with no results. -/
def answer (s : State) (status : Status) : CommandResult :=
  { state := s, status := status, results := [], origin := .response }

/-- An OK answer with results. -/
def okWith (s : State) (results : List Byte) : CommandResult :=
  { state := s, status := .ok, results := results, origin := .response }

/-- The response of a result is placed. -/
def CommandResult.deliver (r : CommandResult) (m : Message) : State := r.state.respond m r.status r.results r.origin

/-- R155: authority, then the owning rule. -/
def judge (authority : Authority) (m : Message) (rule : State → CommandResult) (s : State) : CommandResult :=
  if needsControl authority m && m.source ≠ s.channel.control then answer s .notOwner else rule s

/-- R154, R155: a command row. Where the processor does not take this message now, no command of the row is executed. -/
def executeCommand (code : Byte) (authority : Authority) (m : Message) (rule : State → CommandResult) (s : State) :
    State :=
  if messageCode m = code then
    match s.takeCommand m with
    | some s1 => (judge authority m rule s1).deliver m
    | none => s
  else s

end Sys2Proof.Machine
end

