-- ==== Sys2Proof/Machine/EventCommands.lean ====
section
/-! DEFINITION. The commands of the event unit: EVENT_CONFIG, EVENT_ACK, READ_ALARMS, CLEAR_ALARMS and ALARM_CONFIG. -/

namespace Sys2Proof.Machine

/-- R168: the kind a kind code names, less 1. -/
def argKind (m : Message) (i : Nat) : Option (Fin 20) :=
  if h : 1 ≤ argByte m i ∧ argByte m i ≤ 20 then some ⟨argByte m i - 1, by omega⟩ else none

/-- R168. -/
def eventConfigRule (m : Message) (s : State) : CommandResult :=
  match argKind m 3, argBool m 4, argFin m 5 4 with
  | some k, some enable, some priority =>
    if messageLength m ≠ 6 || (!enable && kindFixed k) then answer s .badArg
    else answer (s.updateEvents fun u =>
      { u with config := updateAt u.config k fun _ => { enabled := enable, priority := priority } }) .ok
  | _, _, _ => answer s .badArg

/-- R176: the sequence numbers an EVENT_ACK names. -/
def ackNumbers (m : Message) : List Word16 := (List.range (argByte m 3)).map fun k => argWord m (4 + 2 * k)

/-- R176. -/
def eventAckRule (m : Message) (s : State) : CommandResult :=
  if argByte m 3 ≤ 8 && messageLength m = 4 + 2 * argByte m 3 then
    let r := s.events.acknowledgeAll s.timing.periodCounter (ackNumbers m)
    okWith (s.updateEvents fun _ => r.1.resume) [byteOf r.2]
  else answer s .badArg

/-- R180: the results of READ_ALARMS. -/
def readAlarmsResults (s : State) : List Byte :=
  alarmBytes s.events.latched ++ alarmBytes s.conditions ++ alarmBytes s.events.pinMask ++ wordBytes s.events.loss ++
    [boolByte (s.events.path = .stalled), byteOf s.events.queue.length, byteOf s.events.outstandingRecords] ++
    wordBytes s.events.sequence

/-- R180. -/
def readAlarmsRule (m : Message) (s : State) : CommandResult :=
  if messageLength m = 3 then okWith s (readAlarmsResults s) else answer s .badArg

/-- R181: the latched alarms after a clear. -/
def clearAlarms (s : State) (mask : BitVec 17) : State :=
  s.updateEvents fun u => { u with latched := clearLatched u.latched mask s.conditions }

/-- R181. -/
def clearAlarmsRule (m : Message) (s : State) : CommandResult :=
  match argAlarmMask m 3 with
  | some mask =>
    if messageLength m = 6 then okWith (clearAlarms s mask) (alarmBytes (clearAlarms s mask).events.latched)
    else answer s .badArg
  | none => answer s .badArg

/-- R182. -/
def alarmConfigRule (m : Message) (s : State) : CommandResult :=
  match argAlarmMask m 3 with
  | some mask =>
    if messageLength m = 6 then answer (s.updateEvents fun u => { u with pinMask := mask }) .ok else answer s .badArg
  | none => answer s .badArg

/-- R168: EVENT_CONFIG. -/
def runEventConfig (m : Message) (s : State) : State :=
  executeCommand 0x50#8 .controlOnly m (eventConfigRule m) s

/-- R168: EVENT_CONFIG. -/
def execEventConfig (m : Message) (s : State) : Host.Outcome State Fault Refusal := .next (runEventConfig m s)

/-- R176: EVENT_ACK. -/
def runEventAck (m : Message) (s : State) : State :=
  executeCommand 0x51#8 .controlOnly m (eventAckRule m) s

/-- R176: EVENT_ACK. -/
def execEventAck (m : Message) (s : State) : Host.Outcome State Fault Refusal := .next (runEventAck m s)

/-- R180: READ_ALARMS. -/
def runReadAlarms (m : Message) (s : State) : State :=
  executeCommand 0x52#8 .anyPort m (readAlarmsRule m) s

/-- R180: READ_ALARMS. -/
def execReadAlarms (m : Message) (s : State) : Host.Outcome State Fault Refusal := .next (runReadAlarms m s)

/-- R181: CLEAR_ALARMS. -/
def runClearAlarms (m : Message) (s : State) : State :=
  executeCommand 0x53#8 .controlOnly m (clearAlarmsRule m) s

/-- R181: CLEAR_ALARMS. -/
def execClearAlarms (m : Message) (s : State) : Host.Outcome State Fault Refusal := .next (runClearAlarms m s)

/-- R182: ALARM_CONFIG. -/
def runAlarmConfig (m : Message) (s : State) : State :=
  executeCommand 0x54#8 .controlOnly m (alarmConfigRule m) s

/-- R182: ALARM_CONFIG. -/
def execAlarmConfig (m : Message) (s : State) : Host.Outcome State Fault Refusal := .next (runAlarmConfig m s)

end Sys2Proof.Machine
end

