-- ==== Sys2Proof/Machine/PartCommands.lean ====
section
/-! DEFINITION. The commands of the management channel and of the egress ports: a code outside Table 7, IDENTIFY, SOFT_RESET,
SET_CONTROL and EGRESS_CONFIG. -/

namespace Sys2Proof.Machine

/-- R155: a queued message whose code is not in Table 7. -/
def refuseCode (m : Message) (s : State) : State :=
  if commandCodes.contains (messageCode m) then s
  else
    match s.takeCommand m with
    | some s1 => (answer s1 .badCode).deliver m
    | none => s

/-- R162: the results of IDENTIFY. -/
def identifyResults (s : State) : List Byte :=
  wordBytes Config.vendorCode ++ wordBytes Config.partCode ++ [Config.revision, s.events.cause.code.setWidth 8] ++
    wordBytes s.timing.periodCounter ++ [byteOf s.channel.control.val]

/-- R162. -/
def identifyRule (m : Message) (s : State) : CommandResult :=
  if messageLength m = 3 then okWith s (identifyResults s) else answer s .badArg

/-- R163: the processor halts until the soft reset has taken effect. -/
def softResetRule (m : Message) (s : State) : CommandResult :=
  if messageLength m = 3 then
    { state := s.updateChannel fun c => { c with processor := .halted }, status := .ok, results := [], origin := .softReset }
  else answer s .badArg

/-- R160, R178: the control port moves. -/
def moveControl (s : State) (p : PortIdx) : State :=
  if p = s.channel.control then s
  else
    ((s.updateChannel fun c => { c with control := p }).updateEvents EventUnit.moveControl).raise .controlMoved
      (smallSubject p) (BitVec.ofNat 16 s.channel.control.val)

/-- R160. -/
def setControlRule (m : Message) (s : State) : CommandResult :=
  match argFin m 3 4 with
  | some p =>
    if messageLength m = 4 && s.ports[p].enabled && s.egress[p].enabled then answer (moveControl s p) .ok
    else answer s .badArg
  | none => answer s .badArg

/-- R20: the port sends frame k and every frame after it. -/
def enableEgress (s : State) (e : PortIdx) : State :=
  if s.egress[e].enabled then s
  else
    s.updateEgress e fun y =>
      { y with enabled := true, responses := [], transmitter := none, serviceDue := true, frameDue := true }

/-- R20, R156, R157: frame k is not sent, the message being sent is abandoned, and the waiting responses are discarded; a
message fully sent at this boundary has its effects all the same. -/
def disableEgress (s : State) (e : PortIdx) : State :=
  if s.egress[e].enabled then
    ((s.completeSending e).abandonSending e).updateEgress e fun y =>
      { y with enabled := false, responses := [], transmitter := none, lane := none }
  else s

/-- R20. -/
def egressConfigRule (m : Message) (s : State) : CommandResult :=
  match argFin m 3 4, argBool m 4 with
  | some e, some enable =>
    if messageLength m ≠ 5 || (!enable && e = s.channel.control) then answer s .badArg
    else if enable then answer (enableEgress s e) .ok
    else answer (disableEgress s e) .ok
  | _, _ => answer s .badArg

/-- R155: UNRECOGNISED_CODE. -/
def runUnrecognisedCode (m : Message) (s : State) : State :=
  refuseCode m s

/-- R155: UNRECOGNISED_CODE. -/
def execUnrecognisedCode (m : Message) (s : State) : Host.Outcome State Fault Refusal := .next (runUnrecognisedCode m s)

/-- R162: IDENTIFY. -/
def runIdentify (m : Message) (s : State) : State :=
  executeCommand 0x01#8 .anyPort m (identifyRule m) s

/-- R162: IDENTIFY. -/
def execIdentify (m : Message) (s : State) : Host.Outcome State Fault Refusal := .next (runIdentify m s)

/-- R163: SOFT_RESET. -/
def runSoftReset (m : Message) (s : State) : State :=
  executeCommand 0x02#8 .controlOnly m (softResetRule m) s

/-- R163: SOFT_RESET. -/
def execSoftReset (m : Message) (s : State) : Host.Outcome State Fault Refusal := .next (runSoftReset m s)

/-- R160: SET_CONTROL. -/
def runSetControl (m : Message) (s : State) : State :=
  executeCommand 0x03#8 .controlOnly m (setControlRule m) s

/-- R160: SET_CONTROL. -/
def execSetControl (m : Message) (s : State) : Host.Outcome State Fault Refusal := .next (runSetControl m s)

/-- R20: EGRESS_CONFIG. -/
def runEgressConfig (m : Message) (s : State) : State :=
  executeCommand 0x40#8 .controlOnly m (egressConfigRule m) s

/-- R20: EGRESS_CONFIG. -/
def execEgressConfig (m : Message) (s : State) : Host.Outcome State Fault Refusal := .next (runEgressConfig m s)

end Sys2Proof.Machine
end

