-- ==== Sys2Proof/Machine/Timing.lean ====
section
/-! DEFINITION. The reference timing unit's work at a boundary (R48 to R50). -/

namespace Sys2Proof.Machine

/-- R48: a tracked length lies between 507 and 517 ticks. -/
def clampPeriod (n : Nat) : Nat := max Config.shortestPeriod (min n Config.longestPeriod)

/-- R49, R52: the detail of TIMING_STATE, and READ_TIMING's timing state. -/
def timingCode : TimingState → Nat
  | .free => 0
  | .tracking => 1
  | .holdover => 2

namespace State

/-- R48, Table 16: the timing state and the length of the period that begins. -/
def timingOutcome (s : State) : TimingState × Nat :=
  match s.timing.source with
  | none => (.free, Config.nominalPeriod)
  | some p =>
    match s.ports[p].isLocked, s.ports[p].average with
    | true, some a => (.tracking, clampPeriod a)
    | _, _ => (.holdover, s.timing.periodLength)

/-- R48, R49: the timing unit fixes its state and the period length; the HOLDOVER condition latches its alarm. -/
def fixTiming (s : State) : State :=
  let o := s.timingOutcome
  let s1 := s.updateTiming fun t => { t with state := o.1, periodLength := o.2, remaining := o.2, fixDue := false }
  let s2 := if o.1 = s.timing.state then s1 else s1.raise .timingState 0 (BitVec.ofNat 16 (timingCode o.1))
  if o.1 = .holdover then s2.latch alarmHoldover else s2

/-- R48: the timing fix, once a boundary. It reads the source port as it stands (R50). -/
def ensureTiming (s : State) : State := if s.timing.fixDue then s.fixTiming else s

end State

end Sys2Proof.Machine
end

