-- ==== Sys2Proof/Machine/PortCommands.lean ====
section
/-! DEFINITION. The commands of the ingress ports and of the timing unit: PORT_CONFIG, PORT_RESTART, READ_PORT, TIMING_CONFIG
and READ_TIMING. -/

namespace Sys2Proof.Machine

/-- R38: the settings bytes 5 to 9 of PORT_CONFIG give; none where one is out of range. -/
def argSettings (m : Message) : Option PortSettings :=
  match argFin m 5 4, argFin m 6 16, argFin m 7 4, argFin m 8 4, argFin m 9 8 with
  | some w, some t, some d, some f, some c =>
    if c.val = 0 then none
    else
      some { windowCode := BitVec.ofNat 2 w.val, tolerance := BitVec.ofNat 4 t.val, depthCode := BitVec.ofNat 2 d.val,
             missCode := BitVec.ofNat 2 f.val, primeCentre := BitVec.ofNat 3 c.val }
  | _, _, _, _, _ => none

/-- R40: W or T differs from the value held. -/
def windowChanged (a b : PortSettings) : Bool := a.windowCode ≠ b.windowCode || a.tolerance ≠ b.tolerance

/-- R40: the settings restart the qualification window. -/
def Port.windowRestarts (x : PortSettings) (p : Port) : Bool := windowChanged x p.settings && p.state = .qualify

/-- R40: new settings for a port that stays enabled. A restarted window has taken the boundary in progress; D and M come into
force with the next tick (`Port.nextTick`). -/
def Port.reconfigure (x : PortSettings) (p : Port) : Port :=
  { p with
    settings := x
    windowCounter := if p.windowRestarts x then windowOf x.windowCode else p.windowCounter
    arrivalCounter := if p.windowRestarts x then 0 else p.arrivalCounter
    windowDue := p.windowDue && !p.windowRestarts x }

/-- R39, R40: an accepted PORT_CONFIG. -/
def configurePort (s : State) (p : PortIdx) (enable : Bool) (x : PortSettings) : State :=
  if enable ≠ s.ports[p].enabled then
    s.updatePort p fun q =>
      ({ q with settings := x, enabled := enable } : Port).setBack (if enable then .search else .disabled)
  else if !enable then s.updatePort p fun q => { q with settings := x }
  else s.updatePort p (Port.reconfigure x)

/-- R38. -/
def portConfigRule (m : Message) (s : State) : CommandResult :=
  match argFin m 3 4, argBool m 4, argSettings m with
  | some p, some enable, some x =>
    if messageLength m ≠ 10 || (!enable && p = s.channel.control) then answer s .badArg
    else answer (configurePort s p enable x) .ok
  | _, _, _ => answer s .badArg

/-- R41: an enabled port goes back to SEARCH; a disabled one stays as it is. -/
def restartPort (s : State) (p : PortIdx) : State :=
  if s.ports[p].enabled then s.updatePort p fun q => q.setBack .search else s

/-- R41. -/
def portRestartRule (m : Message) (s : State) : CommandResult :=
  match argFin m 3 4 with
  | some p => if messageLength m = 4 then answer (restartPort s p) .ok else answer s .badArg
  | none => answer s .badArg

/-- R42: the code of a port state. -/
def portStateCode : PortState → Nat
  | .disabled => 0
  | .search => 1
  | .qualify => 2
  | .prime => 3
  | .locked => 4
  | .lost => 5

/-- R42: the configuration bytes. -/
def settingsBytes (enabled : Bool) (x : PortSettings) : List Byte :=
  [boolByte enabled, x.windowCode.setWidth 8, x.tolerance.setWidth 8, x.depthCode.setWidth 8, x.missCode.setWidth 8,
   x.primeCentre.setWidth 8]

/-- R42: the nine counters, in the order of Table 14. -/
def counterBytes (c : PortCounters) : List Byte :=
  wordBytes c.crcErrors ++ wordBytes c.sequenceGaps ++ wordBytes c.alignmentLosses ++ wordBytes c.slipDrops ++
    wordBytes c.slipRepeats ++ wordBytes c.fragmentErrors ++ wordBytes c.reassemblyTimeouts ++
    wordBytes c.lengthErrors ++ wordBytes c.busyDrops

/-- R42: the results of READ_PORT. -/
def readPortResults (p : Port) : List Byte :=
  [byteOf (portStateCode p.state), boolByte p.framer.isAligned, byteOf p.history.length, boolByte p.averageValid] ++
    natWordBytes (p.average.getD 0) ++ [byteOf p.store.fifo.length] ++
    natWordBytes (if p.state = .qualify then p.windowCounter else 0) ++
    natWordBytes (if p.state = .qualify then p.arrivalCounter else 0) ++
    settingsBytes p.enabled p.settings ++ counterBytes p.counters

/-- R43: the clear option. -/
def clearCounters (s : State) (p : PortIdx) (clear : Bool) : State :=
  if clear then s.countPort p fun _ => zeroCounters else s

/-- R42, R43. -/
def readPortRule (m : Message) (s : State) : CommandResult :=
  match argFin m 3 4, argBool m 4 with
  | some p, some clear =>
    if messageLength m = 5 then okWith (clearCounters s p clear) (readPortResults s.ports[p]) else answer s .badArg
  | _, _ => answer s .badArg

/-- R51: 0 to 3 for a port, 4 for LOCAL. -/
def argSource (m : Message) : Option (Option PortIdx) :=
  match argFin m 3 4 with
  | some p => some (some p)
  | none => if argByte m 3 = 4 then some none else none

/-- R51: the state and length of the period in progress are fixed from the source held before. -/
def timingConfigRule (m : Message) (s : State) : CommandResult :=
  match argSource m with
  | some source =>
    if messageLength m = 4 then answer (s.ensureTiming.updateTiming fun t => { t with source := source }) .ok
    else answer s .badArg
  | none => answer s .badArg

/-- R52: the byte of a source. -/
def sourceByte : Option PortIdx → Byte
  | some p => byteOf p.val
  | none => 4#8

/-- R52: the code of an assignment kind. -/
def assignCode : AssignKind → Nat
  | .silent => 0
  | .picked => 1
  | .repeated => 2

/-- R52: the three bytes of a store. -/
def storeBytes (st : ElasticStore) : List Byte :=
  [byteOf st.fifo.length, byteOf (assignCode st.kind), st.assigned.sequence]

/-- R52: the results of READ_TIMING. -/
def readTimingResults (s : State) : List Byte :=
  [sourceByte s.timing.source, byteOf (timingCode s.timing.state)] ++ natWordBytes s.timing.periodLength ++
    wordBytes s.timing.periodCounter ++ storeBytes s.ports[0].store ++ storeBytes s.ports[1].store ++
    storeBytes s.ports[2].store ++ storeBytes s.ports[3].store

/-- R52: the timing fields are those of the period in progress. -/
def readTimingRule (m : Message) (s : State) : CommandResult :=
  if messageLength m = 3 then okWith s.ensureTiming (readTimingResults s.ensureTiming) else answer s .badArg

/-- R38: PORT_CONFIG. -/
def runPortConfig (m : Message) (s : State) : State :=
  executeCommand 0x10#8 .controlOnly m (portConfigRule m) s

/-- R38: PORT_CONFIG. -/
def execPortConfig (m : Message) (s : State) : Host.Outcome State Fault Refusal := .next (runPortConfig m s)

/-- R41: PORT_RESTART. -/
def runPortRestart (m : Message) (s : State) : State :=
  executeCommand 0x11#8 .controlOnly m (portRestartRule m) s

/-- R41: PORT_RESTART. -/
def execPortRestart (m : Message) (s : State) : Host.Outcome State Fault Refusal := .next (runPortRestart m s)

/-- R42: READ_PORT. -/
def runReadPort (m : Message) (s : State) : State :=
  executeCommand 0x12#8 .clearOnly m (readPortRule m) s

/-- R42: READ_PORT. -/
def execReadPort (m : Message) (s : State) : Host.Outcome State Fault Refusal := .next (runReadPort m s)

/-- R51: TIMING_CONFIG. -/
def runTimingConfig (m : Message) (s : State) : State :=
  executeCommand 0x18#8 .controlOnly m (timingConfigRule m) s

/-- R51: TIMING_CONFIG. -/
def execTimingConfig (m : Message) (s : State) : Host.Outcome State Fault Refusal := .next (runTimingConfig m s)

/-- R52: READ_TIMING. -/
def runReadTiming (m : Message) (s : State) : State :=
  executeCommand 0x19#8 .anyPort m (readTimingRule m) s

/-- R52: READ_TIMING. -/
def execReadTiming (m : Message) (s : State) : Host.Outcome State Fault Refusal := .next (runReadTiming m s)

end Sys2Proof.Machine
end

