-- ==== Sys2Proof/Machine/RouteCommands.lean ====
section
/-! DEFINITION. The commands of the route table and of the commit unit: STAGE_ENTRY, COPY_ACTIVE, READ_ENTRY, COMMIT,
CANCEL_COMMIT and READ_COMMIT. -/

namespace Sys2Proof.Machine

namespace State

/-- R89: the lane mask of the pending commit; 0 when none is pending. -/
def frozenLanes (s : State) : BitVec 4 :=
  match s.pendingCommit with
  | some c => c.mask
  | none => 0#4

/-- R73. -/
def stageEntry (s : State) (i : SlotIdx) (r : RouteRecord) : State :=
  s.updateRoute i fun e => { e with staging := r, dirty := true }

/-- R75: the active records of whole lanes copied into staging. -/
def copyActive (s : State) (mask : BitVec 4) : State :=
  { s with
    routes := Vector.ofFn fun i =>
      if inMask mask i then { s.routes[i] with staging := s.routes[i].active, dirty := false } else s.routes[i] }

end State

/-- R71 to R73: the argument checks, then the interlock of a pending commit. -/
def stageEntryRule (m : Message) (s : State) : CommandResult :=
  match argRecord m with
  | some (i, r) =>
    if State.inMask s.frozenLanes i then answer s .pending else answer (s.stageEntry i r) .ok
  | none => answer s .badArg

/-- R75. -/
def copyActiveRule (m : Message) (s : State) : CommandResult :=
  match argMask m 3 with
  | some mask =>
    if messageLength m ≠ 4 then answer s .badArg
    else if (s.dirtyIn (mask &&& s.frozenLanes)).isEmpty then
      okWith (s.copyActive mask) [byteOf (s.dirtyIn mask).length]
    else answer s .pending
  | none => answer s .badArg

/-- R76: the record a READ_ENTRY selects. -/
def selectedRecord (e : RouteEntry) (staging : Bool) : RouteRecord := if staging then e.staging else e.active

/-- R76. -/
def readEntryRule (m : Message) (s : State) : CommandResult :=
  match argFin m 3 64, argBool m 4 with
  | some i, some staging =>
    if messageLength m = 5 then
      okWith s (boolByte s.routes[i].dirty :: recordBytes (selectedRecord s.routes[i] staging))
    else answer s .badArg
  | _, _ => answer s .badArg

/-- R83: the distance of a target period. -/
def distanceTo (target counter : Word16) : Nat := (target - counter).toNat

/-- R82, R83: the effective period; none is LATE. -/
def effectivePeriod (scheduled : Bool) (target counter : Word16) : Option Word16 :=
  if scheduled then
    if 1 ≤ distanceTo target counter && distanceTo target counter ≤ Config.farthestCommit then some target else none
  else some (counter + 1#16)

/-- R84: the pending record is created, and the answer gives its period and the count of dirty entries. -/
def acceptCommit (s : State) (mask : BitVec 4) (period : Word16) (scheduled : Bool) : CommandResult :=
  okWith (s.setPendingCommit (some
      { mask := mask, effective := period, kind := if scheduled then .scheduled else .immediate }))
    (wordBytes period ++ [byteOf (s.dirtyIn mask).length])

/-- R81: BAD_ARG, then PENDING, then LATE. -/
def commitRule (m : Message) (s : State) : CommandResult :=
  match argBool m 3, argMask m 4 with
  | some scheduled, some mask =>
    if messageLength m ≠ 7 then answer s .badArg
    else if s.pendingCommit.isSome then answer s .pending
    else
      match effectivePeriod scheduled (argWord m 5) s.timing.periodCounter with
      | some period => acceptCommit s mask period scheduled
      | none => answer s .late
  | _, _ => answer s .badArg

/-- R90. -/
def cancelCommitRule (m : Message) (s : State) : CommandResult :=
  if messageLength m ≠ 3 then answer s .badArg
  else if s.pendingCommit.isSome then answer (s.setPendingCommit none) .ok
  else answer s .notPending

/-- R91: the results of READ_COMMIT. -/
def readCommitResults (s : State) : List Byte :=
  match s.pendingCommit with
  | some c =>
    [1#8, boolByte (c.kind = .scheduled), c.mask.setWidth 8] ++ wordBytes c.effective ++
      wordBytes (c.effective - s.timing.periodCounter)
  | none => List.replicate 7 0#8

/-- R91. -/
def readCommitRule (m : Message) (s : State) : CommandResult :=
  if messageLength m = 3 then okWith s (readCommitResults s) else answer s .badArg

/-- R71 to R74: STAGE_ENTRY. -/
def runStageEntry (m : Message) (s : State) : State :=
  executeCommand 0x20#8 .controlOnly m (stageEntryRule m) s

/-- R71 to R74: STAGE_ENTRY. -/
def execStageEntry (m : Message) (s : State) : Host.Outcome State Fault Refusal := .next (runStageEntry m s)

/-- R75: COPY_ACTIVE. -/
def runCopyActive (m : Message) (s : State) : State :=
  executeCommand 0x21#8 .controlOnly m (copyActiveRule m) s

/-- R75: COPY_ACTIVE. -/
def execCopyActive (m : Message) (s : State) : Host.Outcome State Fault Refusal := .next (runCopyActive m s)

/-- R76, R77: READ_ENTRY. -/
def runReadEntry (m : Message) (s : State) : State :=
  executeCommand 0x22#8 .anyPort m (readEntryRule m) s

/-- R76, R77: READ_ENTRY. -/
def execReadEntry (m : Message) (s : State) : Host.Outcome State Fault Refusal := .next (runReadEntry m s)

/-- R81 to R84: COMMIT. -/
def runCommit (m : Message) (s : State) : State :=
  executeCommand 0x28#8 .controlOnly m (commitRule m) s

/-- R81 to R84: COMMIT. -/
def execCommit (m : Message) (s : State) : Host.Outcome State Fault Refusal := .next (runCommit m s)

/-- R90: CANCEL_COMMIT. -/
def runCancelCommit (m : Message) (s : State) : State :=
  executeCommand 0x29#8 .controlOnly m (cancelCommitRule m) s

/-- R90: CANCEL_COMMIT. -/
def execCancelCommit (m : Message) (s : State) : Host.Outcome State Fault Refusal := .next (runCancelCommit m s)

/-- R91: READ_COMMIT. -/
def runReadCommit (m : Message) (s : State) : State :=
  executeCommand 0x2A#8 .anyPort m (readCommitRule m) s

/-- R91: READ_COMMIT. -/
def execReadCommit (m : Message) (s : State) : Host.Outcome State Fault Refusal := .next (runReadCommit m s)

end Sys2Proof.Machine
end

