-- ==== Sys2Proof/Machine/SlotCommands.lean ====
section
/-! DEFINITION. The commands of the profiles, slots, meters and monitors: WRITE_PROFILE, READ_PROFILE, READ_SLOT, SWITCH,
READ_METERS and MONITOR_CONFIG. -/

namespace Sys2Proof.Machine

/-- R94: a two-byte length that must lie below `n`. -/
def argWordFin (m : Message) (i n : Nat) : Option (Fin n) :=
  if h : (argWord m i).toNat < n then some ⟨(argWord m i).toNat, h⟩ else none

/-- R94: the index and the profile a WRITE_PROFILE carries. -/
def argProfile (m : Message) : Option (Fin 8 × Profile) :=
  match argFin m 3 8, argWordFin m 4 1024, argFin m 6 256, argWordFin m 7 1024, argFin m 9 256 with
  | some i, some fo, some g, some fi, some st => some (i, { fadeOut := fo, gap := g, fadeIn := fi, settle := st })
  | _, _, _, _, _ => none

/-- R94: the four lengths are replaced together. Where no phase has been entered under the profile at this boundary, the write
is taken first, and those entered there latch the new lengths; else they all latch the old ones (log entry 20). -/
def writeProfile (s : State) (i : Fin 8) (p : Profile) : State :=
  if s.entered[i] then s.setProfile i p else (s.setProfile i p).setLatching i p

/-- R94. -/
def writeProfileRule (m : Message) (s : State) : CommandResult :=
  match argProfile m with
  | some (i, p) => if messageLength m = 10 then answer (writeProfile s i p) .ok else answer s .badArg
  | none => answer s .badArg

/-- R95: the bytes of a profile. -/
def profileBytes (p : Profile) : List Byte :=
  natWordBytes p.fadeOut.val ++ [byteOf p.gap.val] ++ natWordBytes p.fadeIn.val ++ [byteOf p.settle.val]

/-- R95. -/
def readProfileRule (m : Message) (s : State) : CommandResult :=
  match argFin m 3 8 with
  | some i => if messageLength m = 4 then okWith s (profileBytes s.profiles[i]) else answer s .badArg
  | none => answer s .badArg

/-- Table 30: the code of a phase. -/
def phaseCode : Phase → Nat
  | .steady => 0
  | .fadeOut => 1
  | .gap => 2
  | .fadeIn => 3
  | .settle => 4

/-- R1: a three-byte unsigned result. -/
def natTripleBytes (n : Nat) : List Byte := tripleBytes (BitVec.ofNat 24 n)

/-- R139, Table 30: the results of READ_SLOT. -/
def readSlotResults (x : Slot) : List Byte :=
  [byteOf (phaseCode x.context.phase)] ++ natWordBytes x.context.level ++
    [byteOf x.context.sounding.length, byteOf x.context.target.length] ++ natWordBytes x.context.phasePosition ++
    natWordBytes x.context.phaseLength ++
    [boolByte (x.protection.selected = .backup), boolByte x.protection.held, boolByte x.protection.wtrTimer.isSome] ++
    natWordBytes (x.protection.wtrTimer.getD 0) ++ [boolByte x.protection.doubleLoss] ++
    wordBytes x.meters.clipCounter ++ [boolByte x.meters.clipFlag] ++ natTripleBytes x.meters.peak

/-- R139: the clear option of READ_SLOT. -/
def clearClipCounter (s : State) (i : SlotIdx) (clear : Bool) : State :=
  if clear then s.updateSlot i fun x => { x with meters := { x.meters with clipCounter := 0#16 } } else s

/-- R139, R137: each field as it stands. -/
def readSlotRule (m : Message) (s : State) : CommandResult :=
  match argFin m 3 64, argBool m 4 with
  | some i, some clear =>
    if messageLength m = 5 then okWith (clearClipCounter s i clear) (readSlotResults s.slots[i]) else answer s .badArg
  | _, _ => answer s .badArg

/-- R125: the list a SWITCH names. -/
def namedSelect (backup : Bool) : ListSelect := if backup then .backup else .primary

/-- R126: the record after a switch that moves the slot; a switch to the backup sets the hold. -/
def switchedProtection (select : ListSelect) : Protection := { Protection.moved select with held := select = .backup }

/-- R126, R115: a switch to a list that is available. -/
def switchSlot (s : State) (i : SlotIdx) (select : ListSelect) : State :=
  if s.slots[i].protection.selected = select then s
  else (s.updateProtection i fun _ => switchedProtection select).protectRequest i

/-- R125: the slot has a backup list and the list named is available. -/
def switchPossible (s : State) (i : SlotIdx) (select : ListSelect) : Bool :=
  s.routes[i].active.backup.isSome && s.available (s.routes[i].active.list select)

/-- R127: the protection unit's work for a slot whose entry a commit has replaced is taken as a whole, before the switch
(DEDUCED, log entry 10). -/
def noticeFirst (s : State) (i : SlotIdx) : State := if s.slots[i].due.notice then s.ensureProtect i else s

/-- R125, R126: a switch whose arguments have passed. -/
def executeSwitch (s : State) (i : SlotIdx) (select : ListSelect) : CommandResult :=
  if switchPossible s i select then answer (switchSlot s i select) .ok else answer s .unavailable

/-- R125, R126. -/
def switchRule (m : Message) (s : State) : CommandResult :=
  match argFin m 3 64, argBool m 4 with
  | some i, some backup =>
    if messageLength m ≠ 5 then answer s .badArg else executeSwitch (noticeFirst s i) i (namedSelect backup)
  | _, _ => answer s .badArg

/-- R125, R126: a SWITCH executed now would move the slot it names, and so issue a request for the period in progress. -/
def switchMoves (m : Message) (s : State) (i : SlotIdx) : Bool :=
  messageCode m = 0x38#8 && m.source = s.channel.control && messageLength m = 5 && argFin m 3 64 = some i &&
    (argBool m 4).any fun b => switchPossible s i (namedSelect b) && s.slots[i].protection.selected ≠ namedSelect b

/-- R97, R102: the processor's choice is a SWITCH that would move a slot whose context has been made for the period in
progress, so that its request could no longer be taken for it. -/
def switchTooLate (s : State) : Bool :=
  s.choice.any fun m => (argFin m 3 64).any fun i => switchMoves m s i && !s.slots[i].due.transition

/-- R138: the clip flags of an egress port as a 16-bit value. -/
def clipFlags (s : State) (e : PortIdx) : Word16 :=
  (List.finRange 16).foldl
    (fun w k => if s.slots[slotIndex e k].meters.clipFlag then w ||| BitVec.twoPow 16 k.val else w) 0#16

/-- R138: the results of READ_METERS. -/
def readMetersResults (s : State) (e : PortIdx) : List Byte :=
  wordBytes (clipFlags s e) ++
    (List.finRange 16).flatMap fun k => natTripleBytes s.slots[slotIndex e k].meters.peak

/-- R138: the clear option of READ_METERS, for the 16 slots of the port. -/
def clearMeters (s : State) (e : PortIdx) (clear : Bool) : State :=
  if clear then
    { s with
      slots := Vector.ofFn fun i =>
        if laneOf i = e then
          { s.slots[i] with meters := { s.slots[i].meters with clipFlag := false, peak := 0 } }
        else s.slots[i] }
  else s

/-- R138. -/
def readMetersRule (m : Message) (s : State) : CommandResult :=
  match argFin m 3 4, argBool m 4 with
  | some e, some clear =>
    if messageLength m = 5 then okWith (clearMeters s e clear) (readMetersResults s e) else answer s .badArg
  | _, _ => answer s .badArg

/-- R143: the monitor number and configuration a MONITOR_CONFIG carries. -/
def argMonitor (m : Message) : Option (Fin 4 × Bool × SlotIdx × MonitorMode) :=
  match argFin m 3 4, argBool m 4, argFin m 5 64, argBool m 6 with
  | some n, some enable, some subject, some below => some (n, enable, subject, if below then .below else .above)
  | _, _, _, _ => none

/-- R143: the threshold and the hold lie in range. -/
def monitorLimits (m : Message) : Bool := (argTriple m 7).toNat ≤ 8388608 && 1 ≤ (argWord m 10).toNat

/-- R143. -/
def monitorConfigRule (m : Message) (s : State) : CommandResult :=
  match argMonitor m with
  | some (n, enable, subject, mode) =>
    if messageLength m = 12 && monitorLimits m then
      answer (s.updateMonitor n fun x =>
        { enabled := enable, subject := subject, mode := mode, threshold := (argTriple m 7).toNat,
          hold := (argWord m 10).toNat, state := .under, runCount := 0, evalDue := x.evalDue }) .ok
    else answer s .badArg
  | none => answer s .badArg

/-- R94: WRITE_PROFILE. -/
def runWriteProfile (m : Message) (s : State) : State :=
  executeCommand 0x30#8 .controlOnly m (writeProfileRule m) s

/-- R94: WRITE_PROFILE. -/
def execWriteProfile (m : Message) (s : State) : Host.Outcome State Fault Refusal := .next (runWriteProfile m s)

/-- R95: READ_PROFILE. -/
def runReadProfile (m : Message) (s : State) : State :=
  executeCommand 0x31#8 .anyPort m (readProfileRule m) s

/-- R95: READ_PROFILE. -/
def execReadProfile (m : Message) (s : State) : Host.Outcome State Fault Refusal := .next (runReadProfile m s)

/-- R139: READ_SLOT. -/
def runReadSlot (m : Message) (s : State) : State :=
  executeCommand 0x32#8 .clearOnly m (readSlotRule m) s

/-- R139: READ_SLOT. -/
def execReadSlot (m : Message) (s : State) : Host.Outcome State Fault Refusal := .next (runReadSlot m s)

/-- R125 to R127: SWITCH. -/
def runSwitch (m : Message) (s : State) : State :=
  executeCommand 0x38#8 .controlOnly m (switchRule m) s

/-- R125 to R127: SWITCH. -/
def execSwitch (m : Message) (s : State) : Host.Outcome State Fault Refusal := .next (runSwitch m s)

/-- R138: READ_METERS. -/
def runReadMeters (m : Message) (s : State) : State :=
  executeCommand 0x41#8 .clearOnly m (readMetersRule m) s

/-- R138: READ_METERS. -/
def execReadMeters (m : Message) (s : State) : Host.Outcome State Fault Refusal := .next (runReadMeters m s)

/-- R143: MONITOR_CONFIG. -/
def runMonitorConfig (m : Message) (s : State) : State :=
  executeCommand 0x42#8 .controlOnly m (monitorConfigRule m) s

/-- R143: MONITOR_CONFIG. -/
def execMonitorConfig (m : Message) (s : State) : Host.Outcome State Fault Refusal := .next (runMonitorConfig m s)

end Sys2Proof.Machine
end

