-- ==== Sys2Proof/Machine/Boundary.lean ====
section
/-! DEFINITION. The boundary (R46, R47): the soft reset (R164 and the soft-reset rule of each chapter), the works due at a
boundary, and the passing of time between boundaries. -/

namespace Sys2Proof.Machine

/-- Table 7: the message the processor takes is executed as the command its code names. -/
def runMessage (m : Message) (s : State) : State :=
  match messageCode m with
  | 0x01#8 => runIdentify m s
  | 0x02#8 => runSoftReset m s
  | 0x03#8 => runSetControl m s
  | 0x10#8 => runPortConfig m s
  | 0x11#8 => runPortRestart m s
  | 0x12#8 => runReadPort m s
  | 0x18#8 => runTimingConfig m s
  | 0x19#8 => runReadTiming m s
  | 0x20#8 => runStageEntry m s
  | 0x21#8 => runCopyActive m s
  | 0x22#8 => runReadEntry m s
  | 0x28#8 => runCommit m s
  | 0x29#8 => runCancelCommit m s
  | 0x2A#8 => runReadCommit m s
  | 0x30#8 => runWriteProfile m s
  | 0x31#8 => runReadProfile m s
  | 0x32#8 => runReadSlot m s
  | 0x38#8 => runSwitch m s
  | 0x40#8 => runEgressConfig m s
  | 0x41#8 => runReadMeters m s
  | 0x42#8 => runMonitorConfig m s
  | 0x50#8 => runEventConfig m s
  | 0x51#8 => runEventAck m s
  | 0x52#8 => runReadAlarms m s
  | 0x53#8 => runClearAlarms m s
  | 0x54#8 => runAlarmConfig m s
  | _ => runUnrecognisedCode m s

/-- The works of a slot that fall due at every boundary. A notice is the commit unit's to give (R86). -/
def SlotDue.arm (d : SlotDue) : SlotDue := { d with check := true, protect := true, transition := true, mix := true }

namespace State

/-- Every block's work at the boundary becomes due, but for the stores' picks; the phases entered at it latch the lengths as
the profiles stand (R98). -/
def armWorks (s : State) : State :=
  { s with
    ports := mapTable s.ports fun p => { p with windowDue := true, silenceDue := true }
    latching := s.profiles
    entered := Vector.replicate 8 false
    timing := { s.timing with fixDue := true }
    slots := mapTable s.slots fun x => { x with due := x.due.arm }
    monitors := mapTable s.monitors fun m => { m with evalDue := true }
    egress := mapTable s.egress fun e => { e with serviceDue := true, frameDue := true }
    channel := { s.channel with turn := true } }

/-- R57, R58: the stores' picks become due. -/
def armPicks (s : State) : State :=
  { s with ports := mapTable s.ports fun p => { p with store := { p.store with pickDue := true } } }

/-- R112, R129, R145: a slot at a soft reset. -/
def softResetSlot (s : State) (i : SlotIdx) : Slot :=
  { context := SlotContext.softReset s.routes[i].active
    protection := resetProtection
    meters := zeroMeters
    output := s.slots[i].output
    due := nothingDue
    settleFailed := false
    requests := [] }

/-- R53: the timing unit at a soft reset, before R48 applies at boundary 0. -/
def softResetTiming (t : TimingUnit) : TimingUnit :=
  { t with
    state := if t.source = none then .free else .holdover
    periodLength := Config.nominalPeriod
    periodCounter := 0#16 }

/-- R164, R45, R53, R62, R79, R92, R112, R129, R145, R184: every block's soft-reset values. -/
def softResetValues (s : State) : State :=
  { s with
    ports := mapTable s.ports Port.softReset
    timing := softResetTiming s.timing
    pendingCommit := none
    slots := Vector.ofFn s.softResetSlot
    monitors := mapTable s.monitors Monitor.softReset
    egress := mapTable s.egress fun e => { e with responses := [], transmitter := none }
    channel := { s.channel with queue := [], processor := .executing }
    events := s.events.softReset }

/-- R47, R164, R184: the boundary in progress becomes boundary 0, with RESET_DONE the queue's first record. The tick at which
period 0 begins is past, so its length is fixed at once (R53). -/
def softReset (s : State) : State :=
  (s.softResetValues.raise .resetDone 0 ResetCause.soft.code).armWorks.fixTiming

/-- R164: the response to SOFT_RESET has been fully sent at the boundary in progress. -/
def softResetDue (s : State) : Bool :=
  s.timing.atBoundary &&
    (s.channel.processor = .resetDue ||
      s.egress.toList.any fun e => e.fullySent.any fun x => x.origin = .softReset)

def softResetIfDue (s : State) : State := if s.softResetDue then s.softReset else s

/-- R174: the timeouts due. -/
def timeOutReports (s : State) : State :=
  (s.events.queue.filter EventUnit.timedOut).foldl (fun s r => s.updateEvents (EventUnit.timeOut r.sequence)) s

/-- R154: the processor looks, where no row has had it look at the boundary in progress. -/
def runProcessor (s : State) : State :=
  if s.processorReady then
    match s.arbiter with
    | some (m, _) => runMessage m s
    | none => s.endTurn
  else s

/-- R102, R126: the processor's choice is a SWITCH that would move this slot. -/
def switchWaits (s : State) (i : SlotIdx) : Bool := s.choice.any fun m => switchMoves m s i

/-- R102, R126: a SWITCH that would move the slot is executed before the slot's context is made. -/
def switchFirst (s : State) (i : SlotIdx) : State :=
  if s.slots[i].due.transition then
    let s1 := (s.ensureCheck i).ensureProtect i
    if s1.switchWaits i then s1.runProcessor else s1
  else s

/-- R102, R126: the same for the 16 slots of an egress port. -/
def switchesFirst (s : State) (e : PortIdx) : State := forEach 16 (fun k s => switchFirst s (slotIndex e k)) s

/-- R154, R102: an event that would make a SWITCH the processor's choice too late for its request, by the room it frees or
takes, by the message it completes or by the port it locks, comes after the look (log entry 4). -/
def afterLook (s : State) (event : State → State) : State :=
  if switchTooLate (event s) && !switchTooLate s then event s.runProcessor else event s

/-- A slot's works at the boundary in progress. -/
def finishSlot (s : State) (i : SlotIdx) : State := (((s.ensureCheck i).ensureProtect i).ensureStep i).ensureMix i

/-- Every work of the boundary in progress still due, each once, with everything else that falls due at it. -/
def finishBoundary (s : State) : State :=
  if s.timing.atBoundary then
    let s := s.softResetIfDue.ensureTiming.takeCommitIfDue
    let s := forEach 4 (fun p s => ensureSilence (ensureWindow s p) p) s
    let s := (forEach 4 (fun e s => completeSending s e) s).timeOutReports.runProcessor
    let s := forEach 4 (fun p s => ensurePick s p) s
    let s := forEach 64 (fun i s => finishSlot s i) s
    let s := forEach 4 (fun m s => ensureMonitor s m) s
    forEach 4 (fun e s => ensureFrame (ensureTransmitter s e) e) s
  else s

/-- R34: the running miss timer that expires first before a tick, of those that do. DESIGN CHOICE: of equal ones the lowest
port's (log entry 7). -/
def nextExpiry (s : State) (now limit : Nat) : Option (PortIdx × Nat) :=
  (List.finRange 4).foldl (fun best p =>
    match s.ports[p].expiryTick now with
    | some t =>
      if t < limit then
        match best with
        | some (q, u) => if t < u then some (p, t) else some (q, u)
        | none => some (p, t)
      else best
    | none => best) none

/-- R34: timers that expire strictly before a tick have taken their ports to LOST, in the order of their ticks. -/
def expireBefore (now limit : Nat) : Nat → State → State
  | 0, s => s
  | n + 1, s =>
    match s.nextExpiry now limit with
    | some (p, _) => expireBefore now limit n (s.loseSource p)
    | none => s

/-- Time passes by `n` ticks, at most up to the next boundary. -/
def passTicks (s : State) (n : Nat) : State :=
  { s with
    ports := mapTable s.ports Port.nextTick
    timing := { s.timing with tick := s.timing.tick + n, remaining := s.timing.remaining - n, atBoundary := false } }

/-- The row falls `n` ticks later: timers that expire before its tick have expired, and the tick count advances. -/
def letPass (s : State) (n : Nat) : State :=
  (expireBefore s.timing.tick (s.timing.tick + n) 4 s).passTicks n

/-- The ticks a row's operand can let pass: a row of the next boundary's tick comes after the BOUNDARY row that opens it
(R46, log entry 18). -/
def ticksToPass (s : State) (elapsed : Nat) : Nat := min elapsed (s.timing.remaining - 1)

/-- The row falls `elapsed` ticks after the row before. Works still due at the last boundary are taken first. Nothing happens
between two rows of one tick. -/
def elapse (s : State) (elapsed : Nat) : State :=
  if elapsed = 0 then s else s.finishBoundary.letPass (s.finishBoundary.ticksToPass elapsed)

/-- R46, R47: the number of the period that begins. -/
def nextPeriod (t : TimingUnit) : Word16 := if t.beforeFirst then t.periodCounter else t.periodCounter + 1#16

/-- R46: the count of ticks has run out, and the period counter advances. -/
def beginPeriod (s : State) : State :=
  s.updateTiming fun t => { t with periodCounter := nextPeriod t, beforeFirst := false, atBoundary := true, remaining := 0 }

/-- R46: the next boundary, with every block's work at it due; the reports grow one period older (R174). -/
def openBoundary (s : State) : State :=
  ((s.finishBoundary.letPass s.finishBoundary.timing.remaining).beginPeriod.updateEvents EventUnit.ageRecords).armPicks.armWorks

/-- R157: the transmitter's turn. The pick of a response frees a place of its queue. -/
def transmitterWork (s : State) (e : PortIdx) : State :=
  (if s.egress[e].enabled then s.completeSending e else s).afterLook (ensureTransmitter · e)

/-- R18, R134: the frame of an egress port, after its 16 output samples and its service field. -/
def frameWork (s : State) (e : PortIdx) : State :=
  if s.egress[e].frameDue then (((s.switchesFirst e).ensureMixes e).transmitterWork e).ensureFrame e else s

/-- One work of the boundary in progress, with what must come before it; a work already taken is not taken again. -/
def takeWork (s : State) : Work → State
  | .timing => s.ensureTiming
  | .window p => s.ensureWindow p
  | .silence p => s.ensureSilence p
  | .commit => s.takeCommitIfDue
  | .look => s.runProcessor
  | .pick p => s.ensurePick p
  | .check i => s.ensureCheck i
  | .protect i => s.ensureProtect i
  | .transition i => (s.switchFirst i).ensureStep i
  | .mix i => (s.switchFirst i).ensureMix i
  | .monitor m => (s.switchFirst s.monitors[m].subject).ensureMonitor m
  | .transmitter e => s.transmitterWork e
  | .frame e => s.frameWork e

end State

end Sys2Proof.Machine
end

