-- ==== Sys2Proof/Machine/LaneRows.lean ====
section
/-! DEFINITION. The rows of the ingress ports: WINDOW_COMPLETE, MISS_TIMEOUT, CANDIDATE, CONFIRMING_FRAME, ARRIVAL,
CRC_ERROR_FRAME, MISSING_MARKER and REASSEMBLY_TIMEOUT. -/

namespace Sys2Proof.Machine

namespace State

/-- A framer that runs in the given state (R11: a disabled port's framer examines no bits). -/
def framerIn (s : State) (p : PortIdx) (f : FramerState) : Bool := s.ports[p].enabled && s.ports[p].framer.state = f

def candidateAt (s : State) (p : PortIdx) (position : Nat) (f : LaneFrame) : State :=
  if s.framerIn p .searching && markerPresent f && s.ports[p].framer.position ≤ position then
    s.examineCandidate p position f
  else s

def confirmingAt (s : State) (p : PortIdx) (f : LaneFrame) : State :=
  if s.framerIn p .confirming then s.examineConfirming p f else s

def arrivalAt (s : State) (p : PortIdx) (f : LaneFrame) : State :=
  if s.framerIn p .aligned && frameValid f then s.examineArrival p f else s

def crcErrorAt (s : State) (p : PortIdx) (f : LaneFrame) : State :=
  if s.framerIn p .aligned && markerPresent f && !crcCorrect f then s.examineCrcError p else s

def missingAt (s : State) (p : PortIdx) (f : LaneFrame) : State :=
  if s.framerIn p .aligned && !markerPresent f then s.examineMissing p else s

/-- R24, R25: the window has still to take the boundary in progress, which completes it. -/
def windowCompletes (s : State) (p : PortIdx) : Bool := s.ports[p].windowDue && s.ports[p].countDown.windowDone

/-- R149: the buffer has still to take the boundary in progress, which times it out. -/
def silenceExpires (s : State) (p : PortIdx) : Bool :=
  s.ports[p].silenceDue && s.ports[p].countSilence.reassemblyExpired

end State

/-- R24, R25: the boundary in progress brings the window counter of the port to 0. -/
def execWindowComplete (p : PortIdx) (s : State) : Host.Outcome State Fault Refusal :=
  .next (if s.windowCompletes p then s.takeWindow p else s)

/-- R34, R35: the miss timer's count exceeds the miss window. -/
def execMissTimeout (p : PortIdx) (elapsed : Nat) (s : State) : Host.Outcome State Fault Refusal :=
  .next ((s.elapse elapsed).expireIfExceeded p)

/-- R4: a position the search has not passed holds the sync marker. -/
def execCandidate (p : PortIdx) (elapsed position : Nat) (f : LaneFrame) (s : State) :
    Host.Outcome State Fault Refusal :=
  .next ((s.elapse elapsed).candidateAt p position f)

/-- R5: the frame at the expected position of a candidate. -/
def execConfirmingFrame (p : PortIdx) (elapsed : Nat) (f : LaneFrame) (s : State) : Host.Outcome State Fault Refusal :=
  .next ((s.elapse elapsed).afterLook (State.confirmingAt · p f))

/-- R6, R7: a valid frame at the expected position while ALIGNED. -/
def execArrival (p : PortIdx) (elapsed : Nat) (f : LaneFrame) (s : State) : Host.Outcome State Fault Refusal :=
  .next ((s.elapse elapsed).afterLook (State.arrivalAt · p f))

/-- R6: a frame with its marker and a bad CRC while ALIGNED. -/
def execCrcErrorFrame (p : PortIdx) (elapsed : Nat) (f : LaneFrame) (s : State) : Host.Outcome State Fault Refusal :=
  .next ((s.elapse elapsed).crcErrorAt p f)

/-- R6, R8: an expected position without the marker while ALIGNED. -/
def execMissingMarker (p : PortIdx) (elapsed : Nat) (f : LaneFrame) (s : State) : Host.Outcome State Fault Refusal :=
  .next ((s.elapse elapsed).missingAt p f)

/-- R149: the boundary in progress brings the silence count of the port's buffer to 256. -/
def execReassemblyTimeout (p : PortIdx) (s : State) : Host.Outcome State Fault Refusal :=
  .next (if s.silenceExpires p then s.takeSilence p else s)

end Sys2Proof.Machine
end

