-- ==== Sys2Proof/Machine/ResetRows.lean ====
section
/-! DEFINITION. The rows POWER_ON_RESET, PIN_RESET, SOFT_RESET_TAKES_EFFECT and BOUNDARY. -/

namespace Sys2Proof.Machine

/-- R159: CTLSEL[1:0] read as a number from 0 to 3. -/
def controlOf (ctlsel : BitVec 2) : PortIdx := ⟨ctlsel.toNat, ctlsel.isLt⟩

/-- The rows that wait are no state of the part, and stay. -/
def State.withPending (s : State) (rows : List Instr) : State := { s with pending := rows }

/-- R44, R47, R53, R62, R78, R111, R128, R144, R166, R183: power-on reset. -/
def execPowerOnReset (ctlsel : BitVec 2) (s : State) : Host.Outcome State Fault Refusal :=
  .next ((State.afterReset .powerOn (controlOf ctlsel)).withPending s.pending)

/-- R44, R47, R53, R62, R78, R111, R128, R144, R166, R183: pin reset. -/
def execPinReset (ctlsel : BitVec 2) (s : State) : Host.Outcome State Fault Refusal :=
  .next ((State.afterReset .pin (controlOf ctlsel)).withPending s.pending)

/-- R164: the soft reset takes effect at the boundary at which its response has been fully sent. -/
def execSoftResetTakesEffect (s : State) : Host.Outcome State Fault Refusal := .next s.softResetIfDue

/-- R46: the boundary, or the part of its work this row takes. -/
def execBoundary (part : BoundaryPart) (s : State) : Host.Outcome State Fault Refusal :=
  match part with
  | .whole => .next s.openBoundary.finishBoundary
  | .opening => .next s.openBoundary
  | .only w => .next (s.takeWork w)
  | .rest => .next s.finishBoundary

end Sys2Proof.Machine
end

