-- ==== Sys2Proof/Machine/SlotRows.lean ====
section
/-! DEFINITION. The rows of the commit unit, the output slots, the monitors and the reports: COMMIT_TAKES_EFFECT, PHASE_END,
REVERT, LEVEL_HOLD_REACHED, MESSAGE_FULLY_SENT and REPORT_TIMEOUT. -/

namespace Sys2Proof.Machine

namespace State

/-- R99: the making of the slot's context at the boundary in progress is due, and its step meets a phase at its end. -/
def phaseEndDue (s : State) (i : SlotIdx) : Bool :=
  s.slots[i].due.transition && (((s.switchFirst i).applySettle i).takeRequests i).slots[i].context.phaseEnds

/-- R120: the slot's evaluation at the boundary in progress is due, and it reverts the slot. -/
def revertDue (s : State) (i : SlotIdx) : Bool :=
  let s1 := (s.commitFor i).ensureNotice i
  s1.slots[i].due.protect && s1.slots[i].protection.selected = .backup &&
    (s1.routes[i].active.backup.any fun b => s1.available b) && s1.waitsToRestore i && s1.restoreCount i = 0

/-- R140, R141: the monitor's evaluation at the boundary in progress is due, and it brings the run count to the hold. -/
def holdDue (s : State) (m : Fin 4) : Bool :=
  let i := s.monitors[m].subject
  s.monitors[m].evalDue && s.monitors[m].enabled &&
    s.monitors[m].holdReached (((s.switchFirst i).ensureMix i).subjectMagnitude m)

end State

/-- R85 to R87: the pending commit's effective period has just begun. -/
def execCommitTakesEffect (s : State) : Host.Outcome State Fault Refusal := .next s.commitTakesEffect

/-- R99: the phase position has reached the phase length. -/
def execPhaseEnd (i : SlotIdx) (s : State) : Host.Outcome State Fault Refusal :=
  .next (if s.phaseEndDue i then (s.switchFirst i).ensureStep i else s)

/-- R120: the WTR timer reaches 0. -/
def execRevert (i : SlotIdx) (s : State) : Host.Outcome State Fault Refusal :=
  .next (if s.revertDue i then s.ensureProtect i else s)

/-- R140, R141: the run count of a monitor reaches its hold. -/
def execLevelHoldReached (m : Fin 4) (s : State) : Host.Outcome State Fault Refusal :=
  .next (if s.holdDue m then (s.switchFirst s.monitors[m].subject).ensureMonitor m else s)

/-- R157, R174: the last fragment of the message has left. -/
def execMessageFullySent (e : PortIdx) (s : State) : Host.Outcome State Fault Refusal := .next (s.completeSending e)

/-- R174, R175: the age of the OUTSTANDING record with this number has reached 1,024. -/
def execReportTimeout (sequence : Word16) (s : State) : Host.Outcome State Fault Refusal :=
  .next (s.updateEvents (EventUnit.timeOut sequence))

end Sys2Proof.Machine
end

