-- ==== Sys2Proof/Machine/Dispatch.lean ====
section
/-! DEFINITION. The meaning of every row: one arm per constructor of Instr. -/

namespace Sys2Proof.Machine

/-- The effect of one row on everything but the queue of rows that wait. -/
def exec (i : Instr) (s : State) : Host.Outcome State Fault Refusal :=
  match i with
  | .powerOnReset c => Sys2Proof.Machine.execPowerOnReset c s
  | .pinReset c => Sys2Proof.Machine.execPinReset c s
  | .softResetTakesEffect => Sys2Proof.Machine.execSoftResetTakesEffect s
  | .boundary w => Sys2Proof.Machine.execBoundary w s
  | .windowComplete p => Sys2Proof.Machine.execWindowComplete p s
  | .missTimeout p t => Sys2Proof.Machine.execMissTimeout p t s
  | .candidate p t n f => Sys2Proof.Machine.execCandidate p t n f s
  | .confirmingFrame p t f => Sys2Proof.Machine.execConfirmingFrame p t f s
  | .arrival p t f => Sys2Proof.Machine.execArrival p t f s
  | .crcErrorFrame p t f => Sys2Proof.Machine.execCrcErrorFrame p t f s
  | .missingMarker p t f => Sys2Proof.Machine.execMissingMarker p t f s
  | .reassemblyTimeout p => Sys2Proof.Machine.execReassemblyTimeout p s
  | .commitTakesEffect => Sys2Proof.Machine.execCommitTakesEffect s
  | .phaseEnd j => Sys2Proof.Machine.execPhaseEnd j s
  | .revert j => Sys2Proof.Machine.execRevert j s
  | .levelHoldReached k => Sys2Proof.Machine.execLevelHoldReached k s
  | .messageFullySent e => Sys2Proof.Machine.execMessageFullySent e s
  | .reportTimeout n => Sys2Proof.Machine.execReportTimeout n s
  | .unrecognisedCode m => Sys2Proof.Machine.execUnrecognisedCode m s
  | .identify m => Sys2Proof.Machine.execIdentify m s
  | .softReset m => Sys2Proof.Machine.execSoftReset m s
  | .setControl m => Sys2Proof.Machine.execSetControl m s
  | .portConfig m => Sys2Proof.Machine.execPortConfig m s
  | .portRestart m => Sys2Proof.Machine.execPortRestart m s
  | .readPort m => Sys2Proof.Machine.execReadPort m s
  | .timingConfig m => Sys2Proof.Machine.execTimingConfig m s
  | .readTiming m => Sys2Proof.Machine.execReadTiming m s
  | .stageEntry m => Sys2Proof.Machine.execStageEntry m s
  | .copyActive m => Sys2Proof.Machine.execCopyActive m s
  | .readEntry m => Sys2Proof.Machine.execReadEntry m s
  | .commit m => Sys2Proof.Machine.execCommit m s
  | .cancelCommit m => Sys2Proof.Machine.execCancelCommit m s
  | .readCommit m => Sys2Proof.Machine.execReadCommit m s
  | .writeProfile m => Sys2Proof.Machine.execWriteProfile m s
  | .readProfile m => Sys2Proof.Machine.execReadProfile m s
  | .readSlot m => Sys2Proof.Machine.execReadSlot m s
  | .switch m => Sys2Proof.Machine.execSwitch m s
  | .egressConfig m => Sys2Proof.Machine.execEgressConfig m s
  | .readMeters m => Sys2Proof.Machine.execReadMeters m s
  | .monitorConfig m => Sys2Proof.Machine.execMonitorConfig m s
  | .eventConfig m => Sys2Proof.Machine.execEventConfig m s
  | .eventAck m => Sys2Proof.Machine.execEventAck m s
  | .readAlarms m => Sys2Proof.Machine.execReadAlarms m s
  | .clearAlarms m => Sys2Proof.Machine.execClearAlarms m s
  | .alarmConfig m => Sys2Proof.Machine.execAlarmConfig m s

end Sys2Proof.Machine
end

