-- ==== Sys2Proof/WellFormed.lean ====
section
/-! DEFINITION. When a row's operands are of the kind the row names. -/

namespace Sys2Proof

open Machine

/-- R14, R151: a message in the command queue has 3 to 64 bytes and its length byte counts them. -/
def Message.wellFormed (m : Message) : Bool :=
  3 ≤ m.bytes.length && m.bytes.length ≤ 64 && messageLength m = m.bytes.length

/-- A command row of Table 7 carries a message of its own code. -/
def Message.isCommand (m : Message) (code : Byte) : Bool :=
  m.wellFormed && messageCode m = code

/-- A row is well formed when its frame or message is of the kind the row names; the other operands are bounded by type. -/
def Instr.wellFormed (i : Instr) : Bool :=
  match i with
  | .powerOnReset _ => true
  | .pinReset _ => true
  | .softResetTakesEffect => true
  | .boundary _ => true
  | .windowComplete _ => true
  | .missTimeout _ _ => true
  | .candidate _ _ _ f => markerPresent f
  | .confirmingFrame _ _ _ => true
  | .arrival _ _ f => frameValid f
  | .crcErrorFrame _ _ f => markerPresent f && !crcCorrect f
  | .missingMarker _ _ f => !markerPresent f
  | .reassemblyTimeout _ => true
  | .commitTakesEffect => true
  | .phaseEnd _ => true
  | .revert _ => true
  | .levelHoldReached _ => true
  | .messageFullySent _ => true
  | .reportTimeout _ => true
  | .unrecognisedCode m => m.wellFormed && !(commandCodes.contains (messageCode m))
  | .identify m => m.isCommand 0x01#8
  | .softReset m => m.isCommand 0x02#8
  | .setControl m => m.isCommand 0x03#8
  | .portConfig m => m.isCommand 0x10#8
  | .portRestart m => m.isCommand 0x11#8
  | .readPort m => m.isCommand 0x12#8
  | .timingConfig m => m.isCommand 0x18#8
  | .readTiming m => m.isCommand 0x19#8
  | .stageEntry m => m.isCommand 0x20#8
  | .copyActive m => m.isCommand 0x21#8
  | .readEntry m => m.isCommand 0x22#8
  | .commit m => m.isCommand 0x28#8
  | .cancelCommit m => m.isCommand 0x29#8
  | .readCommit m => m.isCommand 0x2A#8
  | .writeProfile m => m.isCommand 0x30#8
  | .readProfile m => m.isCommand 0x31#8
  | .readSlot m => m.isCommand 0x32#8
  | .switch m => m.isCommand 0x38#8
  | .egressConfig m => m.isCommand 0x40#8
  | .readMeters m => m.isCommand 0x41#8
  | .monitorConfig m => m.isCommand 0x42#8
  | .eventConfig m => m.isCommand 0x50#8
  | .eventAck m => m.isCommand 0x51#8
  | .readAlarms m => m.isCommand 0x52#8
  | .clearAlarms m => m.isCommand 0x53#8
  | .alarmConfig m => m.isCommand 0x54#8

end Sys2Proof
end

