-- ==== Sys2Proof/Safety.lean ====
section
/-! DEFINITION. The words in which claims are stated: the processor's turn, an answered command, and the laws of the manual
as properties of a state. -/

namespace Sys2Proof.Machine

/-! ### The command processor -/

/-- R154: at this boundary the processor takes `m`: every older command of the queue is held back by a response queue that
has no room, and the reply to `m` has room. -/
structure Turn (s : State) (older : List Message) (m : Message) (newer : List Message) : Prop where
  boundary : s.timing.atBoundary = true
  turn : s.channel.turn = true
  executing : s.channel.processor = .executing
  queue : s.channel.queue = older ++ m :: newer
  heldBack : ∀ x ∈ older, 4 ≤ s.egress[x.source].responses.length
  room : s.egress[m.source].responses.length < 4

/-- R102, R126: the processor would take a SWITCH that moves a slot whose context has been made for the period in progress, so
that its request could no longer be taken for it. -/
def SwitchTooLate (s : State) : Prop :=
  ∃ (older newer : List Message) (m : Message) (i : SlotIdx) (backup : Bool), Turn s older m newer ∧
    m.source = s.channel.control ∧ messageCode m = 0x38#8 ∧ messageLength m = 5 ∧ argByte m 3 = i.val ∧
    argByte m 4 = (if backup then 1 else 0) ∧ s.slots[i].due.transition = false ∧ s.routes[i].active.backup ≠ none ∧
    (∀ t ∈ (if backup then s.routes[i].active.backup.getD [] else s.routes[i].active.primary),
      s.ports[laneOf t.source].state = .locked) ∧
    s.slots[i].protection.selected = (if backup then .primary else .backup)

/-- A row leads to `t`. Where that would bring about a SWITCH too late, the processor's look comes before it (the model's
reading of R102 and R154, log entry 4). -/
def LeadsTo (row : Instr) (s t : State) : Prop :=
  ((SwitchTooLate t → SwitchTooLate s) → exec row s = .next t) ∧
    (SwitchTooLate t → ¬SwitchTooLate s →
      ∃ u, exec (.boundary (.only .look)) s = .next u ∧ exec row s = exec row u)

/-- R154: the command has left the queue, and the processor has had its turn. -/
def State.taken (s : State) (older newer : List Message) : State :=
  { s with channel := { s.channel with queue := older ++ newer, turn := false } }

/-- R14, R155, R19: the response to `m` stands at the tail of its response queue; a disabled egress port discards it. -/
def State.answeredAs (s : State) (m : Message) (status : Byte) (results : List Byte) (origin : MessageOrigin) : State :=
  { s with
    egress := updateAt s.egress m.source fun e =>
      if e.enabled then
        { e with
          responses := e.responses ++
            [{ bytes := [BitVec.ofNat 8 (4 + results.length), messageCode m ||| 0x80#8, messageTag m, status] ++ results
               origin := origin }] }
      else e }

def State.answered (s : State) (m : Message) (status : Byte) (results : List Byte) : State :=
  s.answeredAs m status results .response

/-! ### Conditions and availability -/

/-- R180: bit `n` is set exactly for a condition alarm whose condition holds: LOST (R36), HOLDOVER (R49), DOUBLE_LOSS
(R122). -/
def ConditionBits (s : State) (conditions : BitVec 17) : Prop :=
  ∀ n : Fin 17, conditions.getLsbD n.val = true ↔
    (∃ p : PortIdx, p.val = n.val ∧ s.ports[p].state = .lost) ∨ (n.val = 12 ∧ s.timing.state = .holdover) ∨
      (n.val = 13 ∧ ∃ i : SlotIdx, s.slots[i].protection.doubleLoss = true)

/-- R113: every term of the list names a slot of a LOCKED port. -/
def Available (s : State) (l : MixList) : Prop := ∀ t ∈ l, s.ports[laneOf t.source].state = .locked

/-- R85: no pending commit takes effect at the boundary in progress. -/
def NoCommitDue (s : State) : Prop := ∀ c ∈ s.pendingCommit, c.effective ≠ s.timing.periodCounter

/-- R154: the processor does not stand to take a SWITCH that names the slot. -/
def NoSwitchFor (s : State) (i : SlotIdx) : Prop :=
  ∀ (older newer : List Message) (m : Message), Turn s older m newer → messageCode m = 0x38#8 → argByte m 3 ≠ i.val

/-- R34, R40: the running miss timer of no port expires in the present tick, which goes by the D and M in force, or after it
and before a tick, by those of the settings. -/
def NoExpiryBefore (s : State) (limit : Nat) : Prop :=
  ∀ (p : PortIdx) (a : RecordedArrival), s.ports[p].lastArrival = some a →
    s.ports[p].state = .prime ∨ s.ports[p].state = .locked →
    s.timing.tick - a.tick ≤ s.ports[p].missWindow ∧ limit ≤ a.tick + s.ports[p].nextTick.missWindow + 1

/-- R34, R40: at the tick `t`, now or later, the miss timer of the port runs and its count exceeds the miss window; the present
tick goes by the D and M in force, a later one by those of the settings. -/
def TimerExceeds (s : State) (p : PortIdx) (t : Nat) : Prop :=
  ∃ a, s.ports[p].lastArrival = some a ∧ (s.ports[p].state = .prime ∨ s.ports[p].state = .locked) ∧
    (if t = s.timing.tick then s.ports[p].missWindow else s.ports[p].nextTick.missWindow) < t - a.tick

/-- R34: `t` is the first tick, now or later, at which the count exceeds the window. -/
def ExpiresAt (s : State) (p : PortIdx) (t : Nat) : Prop :=
  s.timing.tick ≤ t ∧ TimerExceeds s p t ∧ ∀ u, s.timing.tick ≤ u → u < t → ¬TimerExceeds s p u

/-- R34: of the running timers the port's expires first, at `t`; of those that expire at `t` it is the lowest port's. -/
def ExpiresFirst (s : State) (p : PortIdx) (t : Nat) : Prop :=
  ExpiresAt s p t ∧ ∀ q u, ExpiresAt s q u → t < u ∨ (t = u ∧ p ≤ q)

/-! ### Rows one after another -/

/-- What a list of rows leaves, each taken on the state the one before it leaves. -/
def afterRows (rows : List Instr) (s : State) : State :=
  rows.foldl (fun s row =>
    match exec row s with
    | .next t => t
    | .fault _ => s
    | .refused _ => s) s

/-! ### Arrivals -/

/-- R6, R9: a port whose framer has taken an arrival, and compared and kept its sequence byte. -/
def Port.framed (q : Port) (sequence : Byte) : Port :=
  { q with
    framer := { q.framer with
      missCount := 0, runCount := min (q.framer.runCount + 1) 3, position := q.framer.position + 472
      lastSequence := some sequence }
    counters := { q.counters with
      sequenceGaps :=
        if q.framer.lastSequence = none ∨ q.framer.lastSequence = some (sequence - 1#8) ∨
            q.counters.sequenceGaps = 0xFFFF#16 then q.counters.sequenceGaps
        else q.counters.sequenceGaps + 1#16 } }

/-- R31: a port that has recorded an arrival. -/
def Port.recorded (q : Port) (tick : Nat) (sequence : Byte) : Port :=
  { q with
    history := match q.lastArrival with
      | some a =>
        if sequence = a.sequence + 1#8 then
          (if q.history.length < 8 then q.history else q.history.drop 1) ++ [BitVec.ofNat 16 (min (tick - a.tick) 65535)]
        else q.history
      | none => q.history
    lastArrival := some ⟨tick, sequence⟩ }

/-! ### The laws of the chapters -/

/-- R54. -/
def Port.storeSound (p : Port) : Prop :=
  p.store.fifo.length ≤ 8 ∧ (p.state ≠ .prime → p.state ≠ .locked → p.store.fifo = [])

def StoresSound (s : State) : Prop := ∀ p : PortIdx, s.ports[p].storeSound

/-- R48, Table 15; the count of ticks left never passes the period's length. -/
def TimingSound (s : State) : Prop :=
  507 ≤ s.timing.periodLength ∧ s.timing.periodLength ≤ 517 ∧ s.timing.remaining ≤ s.timing.periodLength ∧
    (s.timing.state = .free → s.timing.periodLength = 512)

/-- R66: at most four terms, no source twice. -/
def listSound (l : MixList) : Prop := l.length ≤ 4 ∧ (l.map (·.source)).Nodup

/-- R66: a backup list that is present holds at least one term. -/
def RouteRecord.sound (r : RouteRecord) : Prop :=
  listSound r.primary ∧ ∀ b ∈ r.backup, listSound b ∧ b ≠ []

/-- R66, R70: every list is sound, and a clean entry's two records are equal. -/
def RoutesSound (s : State) : Prop :=
  ∀ i : SlotIdx, s.routes[i].active.sound ∧ s.routes[i].staging.sound ∧
    (s.routes[i].dirty = false → s.routes[i].staging = s.routes[i].active)

/-- R96, R100: the level lies between 0 and 4,096, full in STEADY and SETTLE and 0 in GAP; the target list is the sounding
list but for a slot that is leaving its list; in STEADY the phase length and position are 0, and in every other phase the
position lies from 1 to the length. -/
def SlotContext.sound (c : SlotContext) : Prop :=
  c.level ≤ 4096 ∧ (c.phase = .steady ∨ c.phase = .settle → c.level = 4096) ∧ (c.phase = .gap → c.level = 0) ∧
    (c.phase = .steady ∨ c.phase = .fadeIn ∨ c.phase = .settle → c.target = c.sounding) ∧
    (c.phase = .steady → c.phaseLength = 0 ∧ c.phasePosition = 0) ∧
    (c.phase ≠ .steady → 1 ≤ c.phasePosition ∧ c.phasePosition ≤ c.phaseLength) ∧ c.phaseLength ≤ 1023

def ContextsSound (s : State) : Prop := ∀ i : SlotIdx, s.slots[i].context.sound

/-- R114: the relations of the protection record's fields, and the law that BACKUP is selected only with a backup list. -/
def Protection.sound (r : RouteRecord) (p : Protection) : Prop :=
  (p.selected = .backup → r.backup.isSome) ∧ (p.held → p.selected = .backup) ∧
    (p.wtrTimer.isSome → p.selected = .backup) ∧ (p.doubleLoss → r.backup.isSome)

/-- Every record holds to it, but for a slot whose entry a commit has replaced and whose notice the protection unit has still
to take (R123). -/
def ProtectionSound (s : State) : Prop :=
  ∀ i : SlotIdx, s.slots[i].due.notice = true ∨ s.slots[i].protection.sound s.routes[i].active

/-- R156, R19: at most four responses, and none in a disabled port, whose transmitter is idle. -/
def Egress.sound (e : Egress) : Prop :=
  e.responses.length ≤ 4 ∧ (e.enabled = false → e.responses = [] ∧ e.transmitter = none)

/-- R151, R152, R156. -/
def ChannelSound (s : State) : Prop :=
  s.channel.queue.length ≤ 8 ∧ (∀ m ∈ s.channel.queue, m.wellFormed = true) ∧ ∀ e : PortIdx, s.egress[e].sound

/-- R21, R39: a port is DISABLED exactly while it is not enabled. -/
def EnablesAgree (s : State) : Prop := ∀ p : PortIdx, s.ports[p].enabled = true ↔ s.ports[p].state ≠ .disabled

/-- R159: the control port's ingress and egress are both enabled. -/
def ControlEnabled (s : State) : Prop :=
  s.ports[s.channel.control].enabled = true ∧ s.egress[s.channel.control].enabled = true

/-- R169, R173: at most 32 records with numbers of their own, in report order, at most four of them OUTSTANDING or in
transmission, and only UNSENT ones in transmission. -/
def EventUnit.sound (u : EventUnit) : Prop :=
  u.queue.length ≤ 32 ∧ (u.queue.map (·.sequence)).Nodup ∧ u.queue.Pairwise (fun a b => b.priority ≤ a.priority) ∧
    (u.queue.countP fun r => r.state = .outstanding || r.inTransmission) ≤ 4 ∧
    ∀ r ∈ u.queue, r.inTransmission = true → r.state = .unsent

/-- R169, R173, and the two kinds R167 keeps enabled. -/
def EventsSound (s : State) : Prop :=
  s.events.sound ∧ s.events.config[EventKind.resetDone.index].enabled = true ∧
    s.events.config[EventKind.eventLoss.index].enabled = true

/-- R179: a condition alarm is latched for as long as its condition holds. -/
def AlarmsFollow (s : State) : Prop :=
  (∀ p : PortIdx, s.ports[p].state = .lost → s.events.latched.getLsbD p.val = true) ∧
    (s.timing.state = .holdover → s.events.latched.getLsbD 12 = true) ∧
    ((∃ i : SlotIdx, s.slots[i].protection.doubleLoss = true) → s.events.latched.getLsbD 13 = true)

end Sys2Proof.Machine
end

