-- ==== Sys2Proof/Certificates/Slice0/Obligations.lean ====
section
/-! DEFINITION. The statements about the part, each formalising rules of the manual. -/

open Sys2Proof Sys2Proof.Machine

/-! ### Steps and the queue of rows -/

/-- A step takes the row at the front of the queue and runs it on the state whose queue is the rest; on an empty queue the
part idles (the model's choice, log entry 1). -/
def Obligations.StepRunsTheFrontRow : Prop :=
  (∀ (c : Instr) (s : State) (rest : List Instr), s.pending = c :: rest → step s = exec c { s with pending := rest }) ∧
    ∀ s : State, s.pending = [] → step s = .next s

/-! ### Reads of the management channel -/

/-- R162, R52, R91, R180: the four reads without arguments, from any port. `conditions` holds, bit by bit, the condition
alarms whose conditions hold (R36, R49, R122). A READ_TIMING meets the timing state and length of the period in progress, so
a timing fix still due is made first (R48, R52; the model's reading, log entry 10). -/
def Obligations.ArgumentlessReadsAnswer : Prop :=
  ∀ (s : State) (older newer : List Message) (m : Message) (conditions : BitVec 17), Turn s older m newer →
    messageLength m = 3 → ConditionBits s conditions →
    (messageCode m = 0x01#8 →
      exec (.identify m) s = .next ((s.taken older newer).answered m 0#8
        ([0x0C#8, 0x51#8, 0x44#8, 0x16#8, 1#8,
          match s.events.cause with
          | .powerOn => 1#8
          | .pin => 2#8
          | .soft => 3#8] ++ wordBytes s.timing.periodCounter ++ [byteOf s.channel.control.val]))) ∧
    (messageCode m = 0x19#8 → s.timing.fixDue = true →
      ∃ u, exec (.boundary (.only .timing)) s = .next u ∧ exec (.readTiming m) s = exec (.readTiming m) u) ∧
    (messageCode m = 0x19#8 → s.timing.fixDue = false →
      exec (.readTiming m) s = .next ((s.taken older newer).answered m 0#8
        ([match s.timing.source with
          | some p => byteOf p.val
          | none => 4#8,
          match s.timing.state with
          | .free => 0#8
          | .tracking => 1#8
          | .holdover => 2#8] ++ natWordBytes s.timing.periodLength ++ wordBytes s.timing.periodCounter ++
        (List.finRange 4).flatMap fun p =>
          [byteOf s.ports[p].store.fifo.length,
           match s.ports[p].store.kind with
           | .silent => 0#8
           | .picked => 1#8
           | .repeated => 2#8,
           s.ports[p].store.assigned.sequence]))) ∧
    (messageCode m = 0x2A#8 →
      exec (.readCommit m) s = .next ((s.taken older newer).answered m 0#8
        (match s.pendingCommit with
         | some c =>
           [1#8, if c.kind = .scheduled then 1#8 else 0#8, c.mask.setWidth 8] ++ wordBytes c.effective ++
             wordBytes (c.effective - s.timing.periodCounter)
         | none => [0#8, 0#8, 0#8, 0#8, 0#8, 0#8, 0#8]))) ∧
    (messageCode m = 0x52#8 →
      exec (.readAlarms m) s = .next ((s.taken older newer).answered m 0#8
        (tripleBytes (s.events.latched.setWidth 24) ++ tripleBytes (conditions.setWidth 24) ++
         tripleBytes (s.events.pinMask.setWidth 24) ++ wordBytes s.events.loss ++
         [if s.events.path = .stalled then 1#8 else 0#8, byteOf s.events.queue.length,
          byteOf (s.events.queue.countP fun r => r.state = .outstanding)] ++ wordBytes s.events.sequence)))

/-- R95, R76: READ_PROFILE and READ_ENTRY. -/
def Obligations.TableReadsAnswer : Prop :=
  ∀ (s : State) (older newer : List Message) (m : Message), Turn s older m newer →
    (∀ i : Fin 8, messageCode m = 0x31#8 → messageLength m = 4 → argByte m 3 = i.val →
      exec (.readProfile m) s = .next ((s.taken older newer).answered m 0#8
        (natWordBytes s.profiles[i].fadeOut.val ++ [byteOf s.profiles[i].gap.val] ++
         natWordBytes s.profiles[i].fadeIn.val ++ [byteOf s.profiles[i].settle.val]))) ∧
    (∀ (i : SlotIdx) (staging : Bool) (r : RouteRecord), messageCode m = 0x22#8 → messageLength m = 5 →
      argByte m 3 = i.val → argByte m 4 = (if staging then 1 else 0) →
      r = (if staging then s.routes[i].staging else s.routes[i].active) →
      exec (.readEntry m) s = .next ((s.taken older newer).answered m 0#8
        ([if s.routes[i].dirty then 1#8 else 0#8, byteOf r.primary.length, byteOf (r.backup.getD []).length,
          byteOf r.profile.val, byteOf r.protectProfile.val, if r.revertMode = .revert then 1#8 else 0#8] ++
         wordBytes r.wtr ++
         (r.primary ++ r.backup.getD []).flatMap fun t =>
           byteOf t.source.val :: (wordBytes t.gain ++ [if t.invert then 1#8 else 0#8]))))

/-- R42, R43, R138: READ_PORT and READ_METERS, plain from any port, with the clear option from the control port. -/
def Obligations.ReadPortAndMetersAnswerAndClear : Prop :=
  (∀ (s : State) (older newer : List Message) (m : Message) (p : PortIdx) (clear : Bool), Turn s older m newer →
      messageCode m = 0x12#8 → m.bytes.length = 5 → messageLength m = 5 → argByte m 3 = p.val →
      argByte m 4 = (if clear then 1 else 0) → (clear = true → m.source = s.channel.control) →
      exec (.readPort m) s = .next
        (({ s.taken older newer with
            ports := if clear then updateAt s.ports p (fun q => { q with counters := zeroCounters }) else s.ports
          } : State).answered m 0#8
          ([match s.ports[p].state with
            | .disabled => 0#8
            | .search => 1#8
            | .qualify => 2#8
            | .prime => 3#8
            | .locked => 4#8
            | .lost => 5#8,
            if s.ports[p].framer.state = .aligned then 1#8 else 0#8,
            byteOf s.ports[p].history.length,
            if s.ports[p].depth ≤ s.ports[p].history.length then 1#8 else 0#8] ++
           natWordBytes (s.ports[p].average.getD 0) ++ [byteOf s.ports[p].store.fifo.length] ++
           natWordBytes (if s.ports[p].state = .qualify then s.ports[p].windowCounter else 0) ++
           natWordBytes (if s.ports[p].state = .qualify then s.ports[p].arrivalCounter else 0) ++
           [if s.ports[p].enabled then 1#8 else 0#8, s.ports[p].settings.windowCode.setWidth 8,
            s.ports[p].settings.tolerance.setWidth 8, s.ports[p].settings.depthCode.setWidth 8,
            s.ports[p].settings.missCode.setWidth 8, s.ports[p].settings.primeCentre.setWidth 8] ++
           [s.ports[p].counters.crcErrors, s.ports[p].counters.sequenceGaps, s.ports[p].counters.alignmentLosses,
            s.ports[p].counters.slipDrops, s.ports[p].counters.slipRepeats, s.ports[p].counters.fragmentErrors,
            s.ports[p].counters.reassemblyTimeouts, s.ports[p].counters.lengthErrors,
            s.ports[p].counters.busyDrops].flatMap wordBytes))) ∧
    ∀ (s : State) (older newer : List Message) (m : Message) (e : PortIdx) (clear : Bool), Turn s older m newer →
      messageCode m = 0x41#8 → m.bytes.length = 5 → messageLength m = 5 → argByte m 3 = e.val →
      argByte m 4 = (if clear then 1 else 0) → (clear = true → m.source = s.channel.control) →
      ∃ flags : Word16,
        (∀ k : Fin 16, flags.getLsbD k.val = s.slots[slotIndex e k].meters.clipFlag) ∧
        exec (.readMeters m) s = .next
          (({ s.taken older newer with
              slots := if clear then
                  Vector.ofFn fun i : SlotIdx =>
                    if i.val / 16 = e.val then
                      { s.slots[i] with meters := { s.slots[i].meters with clipFlag := false, peak := 0 } }
                    else s.slots[i]
                else s.slots
            } : State).answered m 0#8
            (wordBytes flags ++
             (List.finRange 16).flatMap fun k => tripleBytes (BitVec.ofNat 24 s.slots[slotIndex e k].meters.peak)))

/-- R139, R97, R137: READ_SLOT and its clear option, every field as it stands. -/
def Obligations.ReadSlotAnswersAndClears : Prop :=
  ∀ (s : State) (older newer : List Message) (m : Message) (i : SlotIdx) (clear : Bool) (x : Slot), Turn s older m newer →
    messageCode m = 0x32#8 → m.bytes.length = 5 → messageLength m = 5 → argByte m 3 = i.val →
    argByte m 4 = (if clear then 1 else 0) → (clear = true → m.source = s.channel.control) → x = s.slots[i] →
    exec (.readSlot m) s = .next
      (({ s.taken older newer with
          slots := if clear then
              updateAt s.slots i fun y => { y with meters := { y.meters with clipCounter := 0#16 } }
            else s.slots
        } : State).answered m 0#8
        ([match x.context.phase with
          | .steady => 0#8
          | .fadeOut => 1#8
          | .gap => 2#8
          | .fadeIn => 3#8
          | .settle => 4#8] ++ natWordBytes x.context.level ++
         [byteOf x.context.sounding.length, byteOf x.context.target.length] ++ natWordBytes x.context.phasePosition ++
         natWordBytes x.context.phaseLength ++
         [if x.protection.selected = .backup then 1#8 else 0#8, if x.protection.held then 1#8 else 0#8,
          if x.protection.wtrTimer = none then 0#8 else 1#8] ++ natWordBytes (x.protection.wtrTimer.getD 0) ++
         [if x.protection.doubleLoss then 1#8 else 0#8] ++ wordBytes x.meters.clipCounter ++
         [if x.meters.clipFlag then 1#8 else 0#8] ++ tripleBytes (BitVec.ofNat 24 x.meters.peak)))

/-! ### Configuration writes of the management channel -/

/-- R51, R94, R168, R143, R182: the five commands that write a configuration and nothing else, from the control port. The
state and length of the period in progress are fixed from the source held before a TIMING_CONFIG, so a fix still due is made
first (the model's reading, log entry 10). The phases entered at the boundary of a WRITE_PROFILE latch the new lengths, unless
one entered before it has latched the old: then all latch the old (the model's reading, log entry 20). -/
def Obligations.ConfigurationWritesTakeEffect : Prop :=
  ∀ (s : State) (older newer : List Message) (m : Message), Turn s older m newer → m.source = s.channel.control →
    (∀ src : Option PortIdx, messageCode m = 0x18#8 → messageLength m = 4 →
      argByte m 3 = (match src with
        | some p => p.val
        | none => 4) →
      (s.timing.fixDue = true →
        ∃ u, exec (.boundary (.only .timing)) s = .next u ∧ exec (.timingConfig m) s = exec (.timingConfig m) u) ∧
      (s.timing.fixDue = false →
        exec (.timingConfig m) s = .next
          (({ s.taken older newer with timing := { s.timing with source := src } } : State).answered m 0#8 []))) ∧
    (∀ (i : Fin 8) (x : Profile), messageCode m = 0x30#8 → messageLength m = 10 → argByte m 3 = i.val →
      (argWord m 4).toNat = x.fadeOut.val → argByte m 6 = x.gap.val → (argWord m 7).toNat = x.fadeIn.val →
      argByte m 9 = x.settle.val →
      exec (.writeProfile m) s = .next
        (({ s.taken older newer with
            profiles := s.profiles.set i.val x i.isLt
            latching := if s.entered[i] then s.latching else s.latching.set i.val x i.isLt } : State).answered m 0#8 [])) ∧
    (∀ (k : Fin 20) (enable : Bool) (priority : Fin 4), messageCode m = 0x50#8 → messageLength m = 6 →
      argByte m 3 = k.val + 1 → argByte m 4 = (if enable then 1 else 0) → argByte m 5 = priority.val →
      (enable = false → k ≠ EventKind.resetDone.index ∧ k ≠ EventKind.eventLoss.index) →
      exec (.eventConfig m) s = .next
        (({ s.taken older newer with
            events := { s.events with config := s.events.config.set k.val ⟨enable, priority⟩ k.isLt }
          } : State).answered m 0#8 [])) ∧
    (∀ (n : Fin 4) (enable below : Bool) (subject : SlotIdx), messageCode m = 0x42#8 → messageLength m = 12 →
      argByte m 3 = n.val → argByte m 4 = (if enable then 1 else 0) → argByte m 5 = subject.val →
      argByte m 6 = (if below then 1 else 0) → (argTriple m 7).toNat ≤ 8388608 → argWord m 10 ≠ 0#16 →
      exec (.monitorConfig m) s = .next
        (({ s.taken older newer with
            monitors := updateAt s.monitors n fun x =>
              { enabled := enable, subject := subject, mode := if below then .below else .above,
                threshold := (argTriple m 7).toNat, hold := (argWord m 10).toNat, state := .under, runCount := 0,
                evalDue := x.evalDue }
          } : State).answered m 0#8 [])) ∧
    (messageCode m = 0x54#8 → messageLength m = 6 → (argTriple m 3).toNat < 131072 →
      exec (.alarmConfig m) s = .next
        (({ s.taken older newer with events := { s.events with pinMask := (argTriple m 3).setWidth 17 } } : State).answered
          m 0#8 []))

/-- R41, R39: PORT_RESTART sends an enabled port back to SEARCH, and leaves a disabled one as it is. -/
def Obligations.PortRestartStartsAgain : Prop :=
  ∀ (s : State) (older newer : List Message) (m : Message) (p : PortIdx), Turn s older m newer →
    m.source = s.channel.control → messageCode m = 0x11#8 → messageLength m = 4 → argByte m 3 = p.val →
    exec (.portRestart m) s = .next
      (({ s.taken older newer with
          ports := updateAt s.ports p fun q =>
            if q.enabled then
              { q with
                state := .search, origin := none, windowCounter := 0, arrivalCounter := 0, lastArrival := none,
                history := [], framer := framerSetBack, reassembly := none
                store := { q.store with fifo := [], lastAssigned := silentFrame } }
            else q
        } : State).answered m 0#8 [])

/-- R38, R39, R40: PORT_CONFIG, by what it does to the enable. A restarted window has taken the boundary (log entry 10). The D
and M in force stay what they are for the rest of the tick (log entry 7). -/
def Obligations.PortConfigWritesAndActs : Prop :=
  ∀ (s : State) (older newer : List Message) (m : Message) (p : PortIdx) (enable : Bool) (x : PortSettings),
    Turn s older m newer → m.source = s.channel.control → messageCode m = 0x10#8 → messageLength m = 10 →
    argByte m 3 = p.val → argByte m 4 = (if enable then 1 else 0) → argByte m 5 = x.windowCode.toNat →
    argByte m 6 = x.tolerance.toNat → argByte m 7 = x.depthCode.toNat → argByte m 8 = x.missCode.toNat →
    argByte m 9 = x.primeCentre.toNat → x.primeCentre ≠ 0#3 → (enable = false → p ≠ s.channel.control) →
    exec (.portConfig m) s = .next
      (({ s.taken older newer with
          ports := updateAt s.ports p fun q =>
            if enable ≠ s.ports[p].enabled then
              { q with
                enabled := enable, settings := x, state := if enable then .search else .disabled, origin := none
                windowCounter := 0, arrivalCounter := 0, lastArrival := none, history := [], framer := framerSetBack
                reassembly := none, store := { q.store with fifo := [], lastAssigned := silentFrame } }
            else if enable = true ∧ q.state = .qualify ∧
                (x.windowCode ≠ q.settings.windowCode ∨ x.tolerance ≠ q.settings.tolerance) then
              { q with
                settings := x, windowCounter := 64 * 2 ^ x.windowCode.toNat, arrivalCounter := 0, windowDue := false }
            else { q with settings := x }
        } : State).answered m 0#8 [])

/-- R160, R178: SET_CONTROL, to the port that holds the role and to another. -/
def Obligations.SetControlMovesTheRole : Prop :=
  ∀ (s : State) (older newer : List Message) (m : Message) (p : PortIdx), Turn s older m newer →
    m.source = s.channel.control → messageCode m = 0x03#8 → messageLength m = 4 → argByte m 3 = p.val →
    s.ports[p].enabled = true → s.egress[p].enabled = true →
    exec (.setControl m) s = .next
      ((if p = s.channel.control then s.taken older newer
        else
          { s.taken older newer with
            channel := { (s.taken older newer).channel with control := p }
            events := EventUnit.raise s.timing.periodCounter .controlMoved ⟨p.val, by omega⟩
              (BitVec.ofNat 16 s.channel.control.val)
              { s.events with
                path := .running
                queue := s.events.queue.map fun r => { r with state := .unsent, sendCount := 0, stalled := false } }
          } : State).answered m 0#8 [])

/-- R163, R155: SOFT_RESET is answered, and the processor executes nothing further until the reset. -/
def Obligations.SoftResetHaltsTheProcessor : Prop :=
  ∀ (s : State) (older newer : List Message) (m : Message), Turn s older m newer → m.source = s.channel.control →
    messageCode m = 0x02#8 → messageLength m = 3 →
    exec (.softReset m) s = .next
      (({ s.taken older newer with
          channel := { (s.taken older newer).channel with processor := .halted } } : State).answeredAs m 0#8 [] .softReset)

/-- R20, R157: EGRESS_CONFIG. A disable at a boundary gives up a message with fragments still to send, and completes one
whose last fragment rode in the frame before. -/
def Obligations.EgressConfigEnablesAndDisables : Prop :=
  ∀ (s v : State) (older newer : List Message) (m : Message) (e : PortIdx) (enable : Bool), Turn s older m newer →
    m.source = s.channel.control → messageCode m = 0x40#8 → messageLength m = 5 → argByte m 3 = e.val →
    argByte m 4 = (if enable then 1 else 0) →
    (s.egress[e].enabled = enable → (enable = true ∨ e ≠ s.channel.control) →
      exec (.egressConfig m) s = .next ((s.taken older newer).answered m 0#8 [])) ∧
    (s.egress[e].enabled = false → enable = true → e ≠ s.channel.control →
      exec (.egressConfig m) s = .next
        (({ s.taken older newer with
            egress := updateAt s.egress e fun y =>
              { y with
                enabled := true, responses := [], transmitter := none, serviceDue := true, frameDue := true }
          } : State).answered m 0#8 [])) ∧
    (s.egress[e].enabled = true → enable = false → e ≠ s.channel.control →
      v = (match s.egress[e].transmitter with
        | none => s.taken older newer
        | some x =>
          if s.egress[e].serviceDue = true ∧ (x.bytes.length + 2) / 3 ≤ x.next then
            match x.origin with
            | .response => s.taken older newer
            | .softReset =>
              { s.taken older newer with channel := { (s.taken older newer).channel with processor := .resetDue } }
            | .report n => { s.taken older newer with events := s.events.reportSent n }
          else
            match x.origin with
            | .report n =>
              { s.taken older newer with
                events := { s.events with
                  queue := s.events.queue.map fun r =>
                    if r.sequence = n then { r with inTransmission := false } else r } }
            | .response => s.taken older newer
            | .softReset => s.taken older newer) →
      exec (.egressConfig m) s = .next
        (({ v with
            egress := updateAt s.egress e fun y =>
              { y with enabled := false, responses := [], transmitter := none, lane := none } } : State).answered m 0#8
          [])) ∧
    (enable = false → e = s.channel.control →
      exec (.egressConfig m) s = .next ((s.taken older newer).answered m 4#8 []))

/-! ### The route table and the commit unit -/

/-- R76, R71: a record's bytes, behind a slot index, are a STAGE_ENTRY that carries that record. -/
def Obligations.StageEntryReadsARecordBack : Prop :=
  ∀ (i : SlotIdx) (r : RouteRecord) (source : PortIdx) (tag : Byte), r.sound →
    argRecord { source := source
                bytes := [BitVec.ofNat 8 (11 + 4 * (r.primary.length + (r.backup.getD []).length)), 0x20#8, tag,
                          BitVec.ofNat 8 i.val] ++ recordBytes r } = some (i, r)

/-- R72, R73, R89: a STAGE_ENTRY whose arguments pass writes the staging record and the dirty flag of its entry and nothing
else; for a lane of a pending commit it is refused with PENDING; one whose arguments fail is refused with BAD_ARG. -/
def Obligations.StageEntryWritesOrRefuses : Prop :=
  ∀ (s : State) (older newer : List Message) (m : Message), Turn s older m newer → m.source = s.channel.control →
    messageCode m = 0x20#8 →
    (∀ (i : SlotIdx) (r : RouteRecord), argRecord m = some (i, r) →
      (∀ c ∈ s.pendingCommit, c.mask.getLsbD (i.val / 16) = false) →
      exec (.stageEntry m) s = .next
        (({ s.taken older newer with
            routes := updateAt s.routes i fun e => { e with staging := r, dirty := true } } : State).answered m 0#8 [])) ∧
    (∀ (i : SlotIdx) (r : RouteRecord) (c : PendingCommit), argRecord m = some (i, r) → s.pendingCommit = some c →
      c.mask.getLsbD (i.val / 16) = true →
      exec (.stageEntry m) s = .next ((s.taken older newer).answered m 6#8 [])) ∧
    (63 < argByte m 3 ∨ 4 < argByte m 4 ∨ 4 < argByte m 5 ∨
        messageLength m ≠ 11 + 4 * (argByte m 4 + argByte m 5) ∨ 7 < argByte m 6 ∨ 7 < argByte m 7 ∨ 1 < argByte m 8 ∨
        (∃ k < argByte m 4 + argByte m 5, 63 < argByte m (11 + 4 * k) ∨ 1 < argByte m (14 + 4 * k)) ∨
        (∃ j k, j < k ∧ (k < argByte m 4 ∨ (argByte m 4 ≤ j ∧ k < argByte m 4 + argByte m 5)) ∧
          argByte m (11 + 4 * j) = argByte m (11 + 4 * k)) →
      exec (.stageEntry m) s = .next ((s.taken older newer).answered m 4#8 []))

/-- R75, R89: COPY_ACTIVE. -/
def Obligations.CopyActiveWithdrawsEdits : Prop :=
  ∀ (s : State) (older newer : List Message) (m : Message) (mask : BitVec 4), Turn s older m newer →
    m.source = s.channel.control → messageCode m = 0x21#8 → messageLength m = 4 → argByte m 3 = mask.toNat →
    mask ≠ 0#4 →
    ((∀ c ∈ s.pendingCommit, ∀ i : SlotIdx, mask.getLsbD (i.val / 16) = true → c.mask.getLsbD (i.val / 16) = true →
        s.routes[i].dirty = false) →
      exec (.copyActive m) s = .next
        (({ s.taken older newer with
            routes := Vector.ofFn fun i : SlotIdx =>
              if mask.getLsbD (i.val / 16) then { s.routes[i] with staging := s.routes[i].active, dirty := false }
              else s.routes[i] } : State).answered m 0#8
          [BitVec.ofNat 8 ((List.finRange 64).countP fun i : SlotIdx =>
            mask.getLsbD (i.val / 16) && s.routes[i].dirty)])) ∧
    (∀ (c : PendingCommit) (i : SlotIdx), s.pendingCommit = some c → mask.getLsbD (i.val / 16) = true →
      c.mask.getLsbD (i.val / 16) = true → s.routes[i].dirty = true →
      exec (.copyActive m) s = .next ((s.taken older newer).answered m 6#8 []))

/-- R81, R82, R83, R84: COMMIT, where it is accepted and where it is refused; R90: CANCEL_COMMIT. -/
def Obligations.CommitsAreAcceptedRefusedAndCancelled : Prop :=
  (∀ (s : State) (older newer : List Message) (m : Message) (mask : BitVec 4) (count : Byte), Turn s older m newer →
    m.source = s.channel.control → messageCode m = 0x28#8 → messageLength m = 7 → argByte m 4 = mask.toNat →
    mask ≠ 0#4 →
    count = BitVec.ofNat 8 ((List.finRange 64).countP fun i : SlotIdx => mask.getLsbD (i.val / 16) && s.routes[i].dirty) →
    (argByte m 3 = 0 → s.pendingCommit = none →
      exec (.commit m) s = .next
        (({ s.taken older newer with
            pendingCommit := some { mask := mask, effective := s.timing.periodCounter + 1#16, kind := .immediate }
          } : State).answered m 0#8 (wordBytes (s.timing.periodCounter + 1#16) ++ [count]))) ∧
    (argByte m 3 = 1 → s.pendingCommit = none → argWord m 5 ≠ s.timing.periodCounter →
      (argWord m 5 - s.timing.periodCounter).toNat ≤ 32767 →
      exec (.commit m) s = .next
        (({ s.taken older newer with
            pendingCommit := some { mask := mask, effective := argWord m 5, kind := .scheduled }
          } : State).answered m 0#8 (wordBytes (argWord m 5) ++ [count]))) ∧
    (argByte m 3 = 1 → s.pendingCommit = none →
      (argWord m 5 = s.timing.periodCounter ∨ 32768 ≤ (argWord m 5 - s.timing.periodCounter).toNat) →
      exec (.commit m) s = .next ((s.taken older newer).answered m 7#8 [])) ∧
    (argByte m 3 ≤ 1 → s.pendingCommit ≠ none → exec (.commit m) s = .next ((s.taken older newer).answered m 6#8 []))) ∧
  ∀ (s : State) (older newer : List Message) (m : Message), Turn s older m newer → m.source = s.channel.control →
    messageCode m = 0x29#8 → messageLength m = 3 →
    exec (.cancelCommit m) s = .next
      (if s.pendingCommit = none then (s.taken older newer).answered m 8#8 []
       else ({ s.taken older newer with pendingCommit := none } : State).answered m 0#8 [])

/-! ### Switching, acknowledging, alarms, and the refusals -/

/-- R125, R126, R127: SWITCH. R127 lets it be taken before or after the protection unit's work for the slot, and the order of
the rows chooses; but where a commit's notice for the slot is still due, that work, notice and evaluation, is taken as a whole
before it (the model's reading of R127, log entry 10). -/
def Obligations.SwitchMovesTheSlot : Prop :=
  ∀ (s : State) (older newer : List Message) (m : Message) (i : SlotIdx) (backup : Bool) (list : MixList),
    Turn s older m newer → m.source = s.channel.control → messageCode m = 0x38#8 → messageLength m = 5 →
    argByte m 3 = i.val → argByte m 4 = (if backup then 1 else 0) →
    list = (if backup then s.routes[i].active.backup.getD [] else s.routes[i].active.primary) →
    (s.slots[i].due.notice = true →
      ∃ u, exec (.boundary (.only (.protect i))) s = .next u ∧ exec (.switch m) s = exec (.switch m) u) ∧
    (s.slots[i].due.notice = false →
      (s.routes[i].active.backup = none ∨ ¬Available s list →
        exec (.switch m) s = .next ((s.taken older newer).answered m 9#8 [])) ∧
      (s.routes[i].active.backup ≠ none → Available s list →
        s.slots[i].protection.selected = (if backup then .backup else .primary) →
        exec (.switch m) s = .next ((s.taken older newer).answered m 0#8 [])) ∧
      (s.routes[i].active.backup ≠ none → Available s list →
        s.slots[i].protection.selected = (if backup then .primary else .backup) →
        exec (.switch m) s = .next
          (({ s.taken older newer with
              slots := updateAt s.slots i fun x =>
                { x with
                  protection :=
                    { selected := if backup then .backup else .primary, held := backup, wtrTimer := none,
                      doubleLoss := false }
                  requests := x.requests ++ [{ target := list, profile := s.routes[i].active.protectProfile }] }
            } : State).answered m 0#8 [])))

/-- R176: EVENT_ACK while no event has been lost removes the OUTSTANDING records named and resumes the path. R172: a removal
while events have been lost puts one EVENT_LOSS record into the place freed; and an EVENT_ACK while events have been lost removes
the OUTSTANDING records named, puts one EVENT_LOSS record into the first place freed, at its place in report order and with the
number R170 gives, and resumes the path. With no OUTSTANDING record named it only resumes the path. -/
def Obligations.EventAckRemovesRecords : Prop :=
  (∀ (s : State) (older newer : List Message) (m : Message) (numbers : List Word16), Turn s older m newer →
      m.source = s.channel.control → messageCode m = 0x51#8 → numbers.length ≤ 8 → argByte m 3 = numbers.length →
      messageLength m = 4 + 2 * numbers.length →
      (∀ (k : Nat) (h : k < numbers.length), argWord m (4 + 2 * k) = numbers[k]) →
      (s.events.queue.map (·.sequence)).Nodup → s.events.loss = 0#16 →
      exec (.eventAck m) s = .next
        (({ s.taken older newer with
            events := { s.events with
              path := .running
              queue := (s.events.queue.filter fun r => !(r.state = .outstanding && numbers.contains r.sequence)).map
                fun r => { r with sendCount := 0, state := if r.stalled then .unsent else r.state, stalled := false } }
          } : State).answered m 0#8
          [BitVec.ofNat 8 (s.events.queue.countP fun r => r.state = .outstanding && numbers.contains r.sequence)])) ∧
  (∀ (u : EventUnit) (stamp : Word16) (r : EventRecord) (before after : List EventRecord),
      u.queue = before ++ r :: after → r.state = .outstanding → (u.queue.map (·.sequence)).Nodup →
      u.queue.length ≤ 32 → u.loss ≠ 0#16 →
      ∃ x : EventRecord, (u.acknowledge stamp r.sequence).2 = true ∧
        (u.acknowledge stamp r.sequence).1.loss = 0#16 ∧
        (u.acknowledge stamp r.sequence).1.queue.Perm (x :: (before ++ after)) ∧
        x.kind = .eventLoss ∧ x.subject = 0 ∧ x.detail = u.loss ∧ x.stamp = stamp ∧ x.state = .unsent ∧
        x.priority = u.config[EventKind.eventLoss.index].priority ∧
        x.inTransmission = false ∧ x.sendCount = 0 ∧ x.age = 0 ∧ x.sequence ∉ (before ++ after).map (·.sequence)) ∧
  ∀ (s : State) (older newer : List Message) (m : Message) (numbers : List Word16) (named : EventRecord → Bool)
    (resumed : EventRecord → EventRecord) (u : EventUnit → State), Turn s older m newer →
    m.source = s.channel.control → messageCode m = 0x51#8 → numbers.length ≤ 8 → argByte m 3 = numbers.length →
    messageLength m = 4 + 2 * numbers.length →
    (∀ (k : Nat) (h : k < numbers.length), argWord m (4 + 2 * k) = numbers[k]) → s.events.sound → s.events.loss ≠ 0#16 →
    (∀ r, named r = (r.state = .outstanding && numbers.contains r.sequence)) →
    (∀ r, resumed r = { r with sendCount := 0, state := if r.stalled then .unsent else r.state, stalled := false }) →
    (∀ v, u v = ({ s.taken older newer with events := v } : State).answered m 0#8
      [BitVec.ofNat 8 (s.events.queue.countP named)]) →
    ((∀ r ∈ s.events.queue, named r = false) →
      exec (.eventAck m) s = .next (u { s.events with path := .running, queue := s.events.queue.map resumed })) ∧
    ∀ (earlier later : List Word16) (first : Word16), numbers = earlier ++ first :: later →
      (∀ r ∈ s.events.queue, r.state = .outstanding → r.sequence ∉ earlier) →
      (∃ r ∈ s.events.queue, r.state = .outstanding ∧ r.sequence = first) →
      ∃ (front back : List EventRecord) (number : Word16) (steps : Nat),
        front ++ back = s.events.queue.filter (fun r => !named r) ∧
        (∀ r ∈ front, s.events.config[EventKind.eventLoss.index].priority ≤ r.priority) ∧
        (∀ r ∈ back, r.priority < s.events.config[EventKind.eventLoss.index].priority) ∧
        number = s.events.sequence + BitVec.ofNat 16 steps ∧
        (¬∃ r ∈ s.events.queue, r.sequence ≠ first ∧ r.sequence = number) ∧
        (∀ k < steps, ∃ r ∈ s.events.queue, r.sequence ≠ first ∧ r.sequence = s.events.sequence + BitVec.ofNat 16 k) ∧
        exec (.eventAck m) s = .next (u
          { s.events with
            path := .running, loss := 0#16, sequence := number + 1#16
            queue := front.map resumed ++
              ⟨number, .eventLoss, s.events.config[EventKind.eventLoss.index].priority, 0, s.timing.periodCounter,
                s.events.loss, .unsent, false, 0, 0, false⟩ :: back.map resumed })

/-- R181: CLEAR_ALARMS. R182: ALARM_N is driven low exactly while an alarm is both latched and set in the pin mask. -/
def Obligations.AlarmsClearSetAgainAndDriveThePin : Prop :=
  (∀ (s : State) (older newer : List Message) (m : Message) (mask conditions after : BitVec 17), Turn s older m newer →
      m.source = s.channel.control → messageCode m = 0x53#8 → messageLength m = 6 → argTriple m 3 = mask.setWidth 24 →
      ConditionBits s conditions →
      (∀ n : Fin 17, after.getLsbD n.val =
        if mask.getLsbD n.val then conditions.getLsbD n.val else s.events.latched.getLsbD n.val) →
      exec (.clearAlarms m) s = .next
        (({ s.taken older newer with events := { s.events with latched := after } } : State).answered m 0#8
          (tripleBytes (after.setWidth 24)))) ∧
    ∀ s : State, s.alarmPinLow = true ↔
      ∃ n : Fin 17, s.events.latched.getLsbD n.val = true ∧ s.events.pinMask.getLsbD n.val = true

/-- R155, R15: a code that is not in Table 7, and a command that needs the control port, from another port. -/
def Obligations.CodesAndAuthorityAreChecked : Prop :=
  (∀ (s : State) (older newer : List Message) (m : Message), Turn s older m newer →
    messageCode m ∉ [0x01#8, 0x02#8, 0x03#8, 0x10#8, 0x11#8, 0x12#8, 0x18#8, 0x19#8, 0x20#8, 0x21#8, 0x22#8, 0x28#8,
      0x29#8, 0x2A#8, 0x30#8, 0x31#8, 0x32#8, 0x38#8, 0x40#8, 0x41#8, 0x42#8, 0x50#8, 0x51#8, 0x52#8, 0x53#8, 0x54#8] →
    exec (.unrecognisedCode m) s = .next ((s.taken older newer).answered m 3#8 [])) ∧
  ∀ (s : State) (older newer : List Message) (m : Message) (code : Byte) (row : Instr), Turn s older m newer →
    m.source ≠ s.channel.control → messageCode m = code →
    (code, row) ∈ [(0x02#8, Instr.softReset m), (0x03#8, .setControl m), (0x10#8, .portConfig m), (0x11#8, .portRestart m),
      (0x18#8, .timingConfig m), (0x20#8, .stageEntry m), (0x21#8, .copyActive m), (0x28#8, .commit m),
      (0x29#8, .cancelCommit m), (0x30#8, .writeProfile m), (0x38#8, .switch m), (0x40#8, .egressConfig m),
      (0x42#8, .monitorConfig m), (0x50#8, .eventConfig m), (0x51#8, .eventAck m), (0x53#8, .clearAlarms m),
      (0x54#8, .alarmConfig m)] ∨
      ((code, row) ∈ [(0x12#8, Instr.readPort m), (0x32#8, .readSlot m), (0x41#8, .readMeters m)] ∧
        m.bytes[4]? = some 1#8) →
    exec row s = .next ((s.taken older newer).answered m 5#8 [])

/-- Table 34 and the owning rules: a length byte that the command does not accept. The reads answer so from any port (R155). -/
def Obligations.WrongLengthsAreRefused : Prop :=
  ∀ (s : State) (older newer : List Message) (m : Message) (code : Byte) (length : Nat) (row : Instr),
    Turn s older m newer → messageCode m = code → messageLength m ≠ length →
    (code, length, row) ∈ [(0x01#8, 3, Instr.identify m), (0x19#8, 3, .readTiming m), (0x22#8, 5, .readEntry m),
      (0x2A#8, 3, .readCommit m), (0x31#8, 4, .readProfile m), (0x52#8, 3, .readAlarms m)] ∨
      ((code, length, row) ∈ [(0x12#8, 5, Instr.readPort m), (0x32#8, 5, .readSlot m), (0x41#8, 5, .readMeters m)] ∧
        (m.source = s.channel.control ∨ m.bytes[4]? ≠ some 1#8)) ∨
      ((code, length, row) ∈ [(0x02#8, 3, Instr.softReset m), (0x03#8, 4, .setControl m), (0x10#8, 10, .portConfig m),
        (0x11#8, 4, .portRestart m), (0x18#8, 4, .timingConfig m), (0x21#8, 4, .copyActive m), (0x28#8, 7, .commit m),
        (0x29#8, 3, .cancelCommit m), (0x30#8, 10, .writeProfile m), (0x38#8, 5, .switch m), (0x40#8, 5, .egressConfig m),
        (0x42#8, 12, .monitorConfig m), (0x50#8, 6, .eventConfig m), (0x51#8, 4 + 2 * argByte m 3, .eventAck m),
        (0x53#8, 6, .clearAlarms m), (0x54#8, 6, .alarmConfig m)] ∧ m.source = s.channel.control) →
    exec row s = .next ((s.taken older newer).answered m 4#8 [])

/-- The owning rules: an argument that is out of range or not allowed. The reads answer so from any port (R155). -/
def Obligations.BadArgumentsAreRefused : Prop :=
  ∀ (s : State) (older newer : List Message) (m : Message) (code : Byte) (row : Instr) (b : Nat → Nat),
    Turn s older m newer → messageCode m = code → (∀ k, b k = argByte m k) →
    ((code, row) = (0x22#8, .readEntry m) ∧ (63 < b 3 ∨ 1 < b 4)) ∨ ((code, row) = (0x31#8, .readProfile m) ∧ 7 < b 3) ∨
      (((code, row) = (0x12#8, .readPort m) ∧ (3 < b 3 ∨ 1 < b 4) ∨
          (code, row) = (0x32#8, .readSlot m) ∧ (63 < b 3 ∨ 1 < b 4) ∨
          (code, row) = (0x41#8, .readMeters m) ∧ (3 < b 3 ∨ 1 < b 4)) ∧
        (m.source = s.channel.control ∨ m.bytes[4]? ≠ some 1#8)) ∨
      (((code, row) = (0x03#8, .setControl m) ∧
            (3 < b 3 ∨ ∃ p : PortIdx, b 3 = p.val ∧ (s.ports[p].enabled = false ∨ s.egress[p].enabled = false)) ∨
          (code, row) = (0x10#8, .portConfig m) ∧
            (3 < b 3 ∨ 1 < b 4 ∨ 3 < b 5 ∨ 15 < b 6 ∨ 3 < b 7 ∨ 3 < b 8 ∨ b 9 = 0 ∨ 7 < b 9 ∨
              (b 4 = 0 ∧ b 3 = s.channel.control.val)) ∨
          (code, row) = (0x11#8, .portRestart m) ∧ 3 < b 3 ∨ (code, row) = (0x18#8, .timingConfig m) ∧ 4 < b 3 ∨
          (code, row) = (0x21#8, .copyActive m) ∧ (b 3 = 0 ∨ 15 < b 3) ∨
          (code, row) = (0x28#8, .commit m) ∧ (1 < b 3 ∨ b 4 = 0 ∨ 15 < b 4) ∨
          (code, row) = (0x30#8, .writeProfile m) ∧ (7 < b 3 ∨ 1023 < (argWord m 4).toNat ∨ 1023 < (argWord m 7).toNat) ∨
          (code, row) = (0x38#8, .switch m) ∧ (63 < b 3 ∨ 1 < b 4) ∨
          (code, row) = (0x40#8, .egressConfig m) ∧ (3 < b 3 ∨ 1 < b 4) ∨
          (code, row) = (0x42#8, .monitorConfig m) ∧
            (3 < b 3 ∨ 1 < b 4 ∨ 63 < b 5 ∨ 1 < b 6 ∨ 8388608 < (argTriple m 7).toNat ∨ argWord m 10 = 0#16) ∨
          (code, row) = (0x50#8, .eventConfig m) ∧
            (b 3 = 0 ∨ 20 < b 3 ∨ 1 < b 4 ∨ 3 < b 5 ∨ (b 4 = 0 ∧ (b 3 = 1 ∨ b 3 = 20))) ∨
          (code, row) = (0x51#8, .eventAck m) ∧ 8 < b 3 ∨
          (code, row) = (0x53#8, .clearAlarms m) ∧ 131072 ≤ (argTriple m 3).toNat ∨
          (code, row) = (0x54#8, .alarmConfig m) ∧ 131072 ≤ (argTriple m 3).toNat) ∧ m.source = s.channel.control) →
    exec row s = .next ((s.taken older newer).answered m 4#8 [])

/-- R154, R155, R163: the command processor looks once at a boundary. Its look executes the command it takes, as that
command's row does; it finds nothing where no reply has room; after it, away from a boundary and while a soft reset is
awaited, no row of a command executes anything (that such a row changes nothing is the model's choice, log entry 2). R102,
R126: a SWITCH that would move a slot is executed before the slot's context is made for the period (the model's reading, log
entry 4). -/
def Obligations.TheProcessorLooksOnceABoundary : Prop :=
  ∀ (s : State) (rows : Message → List (Byte × Instr)),
    (∀ m, rows m = [(0x01#8, Instr.identify m), (0x02#8, .softReset m), (0x03#8, .setControl m), (0x10#8, .portConfig m),
      (0x11#8, .portRestart m), (0x12#8, .readPort m), (0x18#8, .timingConfig m), (0x19#8, .readTiming m),
      (0x20#8, .stageEntry m), (0x21#8, .copyActive m), (0x22#8, .readEntry m), (0x28#8, .commit m),
      (0x29#8, .cancelCommit m), (0x2A#8, .readCommit m), (0x30#8, .writeProfile m), (0x31#8, .readProfile m),
      (0x32#8, .readSlot m), (0x38#8, .switch m), (0x40#8, .egressConfig m), (0x41#8, .readMeters m),
      (0x42#8, .monitorConfig m), (0x50#8, .eventConfig m), (0x51#8, .eventAck m), (0x52#8, .readAlarms m),
      (0x53#8, .clearAlarms m), (0x54#8, .alarmConfig m)]) →
    (∀ (older newer : List Message) (m : Message), Turn s older m newer →
      (∀ row, (messageCode m, row) ∈ rows m → exec (.boundary (.only .look)) s = exec row s) ∧
      ((∀ row, (messageCode m, row) ∉ rows m) → exec (.boundary (.only .look)) s = exec (.unrecognisedCode m) s)) ∧
    (s.timing.atBoundary = true → s.channel.turn = true → s.channel.processor = .executing →
      (∀ m ∈ s.channel.queue, 4 ≤ s.egress[m.source].responses.length) →
      exec (.boundary (.only .look)) s = .next { s with channel := { s.channel with turn := false } }) ∧
    (s.timing.atBoundary = false ∨ s.channel.turn = false ∨ s.channel.processor ≠ .executing →
      exec (.boundary (.only .look)) s = .next s ∧
        ∀ m, exec (.unrecognisedCode m) s = .next s ∧ ∀ code row, (code, row) ∈ rows m → exec row s = .next s) ∧
    ∀ (older newer : List Message) (m : Message) (i : SlotIdx) (backup : Bool) (list : MixList), Turn s older m newer →
      m.source = s.channel.control → messageCode m = 0x38#8 → messageLength m = 5 → argByte m 3 = i.val →
      argByte m 4 = (if backup then 1 else 0) → s.slots[i].due = ⟨false, false, false, true, true⟩ → NoCommitDue s →
      list = (if backup then s.routes[i].active.backup.getD [] else s.routes[i].active.primary) →
      s.routes[i].active.backup ≠ none → Available s list →
      s.slots[i].protection.selected = (if backup then .primary else .backup) →
      ∃ u, exec (.switch m) s = .next u ∧
        exec (.boundary (.only (.transition i))) s = exec (.boundary (.only (.transition i))) u ∧
        exec (.boundary (.only (.mix i))) s = exec (.boundary (.only (.mix i))) u

/-! ### Resets -/

/-- R44, R53, R62, R78, R92, R111, R128, R144, R166, R183: what a power-on reset and a pin reset leave. The rows that wait
stay (the model's choice, log entry 15). -/
def Obligations.PowerOnAndPinResetValues : Prop :=
  ∀ (s : State) (ctlsel : BitVec 2) (row : Instr) (cause : ResetCause) (detail : Word16),
    (row = .powerOnReset ctlsel ∧ cause = .powerOn ∧ detail = 1#16) ∨
      (row = .pinReset ctlsel ∧ cause = .pin ∧ detail = 2#16) →
    ∃ t, exec row s = .next t ∧ t.pending = s.pending ∧
      (∀ p : PortIdx,
        t.ports[p].enabled = true ∧ t.ports[p].window = 256 ∧ t.ports[p].tolerance = 2 ∧ t.ports[p].depth = 4 ∧
        t.ports[p].missFactor = 3 ∧ t.ports[p].settings.depthCode = 2#2 ∧ t.ports[p].settings.missCode = 1#2 ∧
        t.ports[p].primeCentre = 3 ∧ t.ports[p].state = .search ∧ t.ports[p].origin = none ∧
        t.ports[p].windowCounter = 0 ∧ t.ports[p].arrivalCounter = 0 ∧ t.ports[p].lastArrival = none ∧
        t.ports[p].history = [] ∧ t.ports[p].counters = ⟨0#16, 0#16, 0#16, 0#16, 0#16, 0#16, 0#16, 0#16, 0#16⟩ ∧
        t.ports[p].reassembly = none ∧ t.ports[p].framer.state = .searching ∧ t.ports[p].framer.confirmCount = 0 ∧
        t.ports[p].framer.missCount = 0 ∧ t.ports[p].framer.runCount = 0 ∧ t.ports[p].framer.lastSequence = none ∧
        t.ports[p].store.fifo = [] ∧ t.ports[p].store.kind = .silent ∧
        t.ports[p].store.assigned = ⟨Vector.replicate 16 0#24, 0#16, 0#8⟩ ∧
        t.ports[p].store.lastAssigned = ⟨Vector.replicate 16 0#24, 0#16, 0#8⟩) ∧
      t.timing.source = none ∧ t.timing.state = .free ∧ t.timing.periodLength = 512 ∧ t.timing.periodCounter = 0#16 ∧
      (∀ i : SlotIdx,
        t.routes[i].active = ⟨[⟨i, 16384#16, false⟩], none, 0, 0, .none, 0#16⟩ ∧
        t.routes[i].staging = t.routes[i].active ∧ t.routes[i].dirty = false ∧
        t.slots[i].context = ⟨.steady, [⟨i, 16384#16, false⟩], [⟨i, 16384#16, false⟩], 4096, 0, 0, 0⟩ ∧
        t.slots[i].protection = ⟨.primary, false, none, false⟩ ∧ t.slots[i].meters = ⟨0#16, false, 0⟩) ∧
      t.pendingCommit = none ∧ (∀ i : Fin 8, t.profiles[i] = ⟨0, 0, 0, 0⟩) ∧
      (∀ n : Fin 4,
        t.monitors[n].enabled = false ∧ t.monitors[n].subject = 0 ∧ t.monitors[n].mode = .above ∧
        t.monitors[n].threshold = 0 ∧ t.monitors[n].hold = 1 ∧ t.monitors[n].state = .under ∧
        t.monitors[n].runCount = 0) ∧
      (∀ e : PortIdx,
        t.egress[e].enabled = true ∧ t.egress[e].responses = [] ∧ t.egress[e].transmitter = none ∧
        t.egress[e].lane = none) ∧
      t.channel.queue = [] ∧ t.channel.processor = .executing ∧ t.channel.control.val = ctlsel.toNat ∧
      (∀ k : Fin 20,
        t.events.config[k].enabled = decide (k.val ≠ 7 ∧ k.val ≠ 8) ∧
        t.events.config[k].priority.val =
          [3, 3, 2, 1, 1, 2, 2, 0, 0, 2, 3, 2, 3, 3, 1, 1, 1, 1, 3, 3].getD k.val 0) ∧
      t.events.queue = [⟨0#16, .resetDone, 3, 0, 0#16, detail, .unsent, false, 0, 0, false⟩] ∧
      t.events.sequence = 1#16 ∧ t.events.loss = 0#16 ∧ t.events.path = .running ∧ t.events.latched = 0#17 ∧
      t.events.pinMask = BitVec.allOnes 17 ∧ t.events.cause = cause

/-- R164, R45, R53, R59, R62, R79, R92, R112, R129, R145, R184: SOFT_RESET_TAKES_EFFECT, at the boundary at which the response
has been fully sent. A store whose pick of the boundary is past keeps the frame it gave (the model's reading of R59 beside R62,
log entry 19), but every source reads 0 in period 0 (R145); the other works become due anew (the model's own fields, log
entry 12). Elsewhere the row changes nothing (the model's choice, log entry 2). -/
def Obligations.SoftResetTakesEffect : Prop :=
  (∀ s : State, s.timing.atBoundary = true →
    (s.channel.processor = .resetDue ∨ ∃ (e : PortIdx) (x : Sending), s.egress[e].transmitter = some x ∧
      x.origin = .softReset ∧ s.egress[e].serviceDue = true ∧ (x.bytes.length + 2) / 3 ≤ x.next) →
    s.events.config[EventKind.resetDone.index].enabled = true →
    ∃ t, exec .softResetTakesEffect s = .next t ∧ t.pending = s.pending ∧ t.routes = s.routes ∧
      t.profiles = s.profiles ∧ t.latching = s.profiles ∧ t.entered = Vector.replicate 8 false ∧ t.pendingCommit = none ∧
      t.timing = { s.timing with
        state := if s.timing.source = none then .free else .holdover
        periodLength := 512, periodCounter := 0#16, remaining := 512, fixDue := false } ∧
      (∀ p : PortIdx,
        t.ports[p].enabled = s.ports[p].enabled ∧ t.ports[p].settings = s.ports[p].settings ∧
        t.ports[p].depth = s.ports[p].depth ∧ t.ports[p].missFactor = s.ports[p].missFactor ∧
        t.ports[p].state = (if s.ports[p].enabled then .search else .disabled) ∧ t.ports[p].origin = none ∧
        t.ports[p].windowCounter = 0 ∧ t.ports[p].arrivalCounter = 0 ∧ t.ports[p].lastArrival = none ∧
        t.ports[p].history = [] ∧ t.ports[p].counters = ⟨0#16, 0#16, 0#16, 0#16, 0#16, 0#16, 0#16, 0#16, 0#16⟩ ∧
        t.ports[p].reassembly = none ∧ t.ports[p].framer.state = .searching ∧ t.ports[p].framer.confirmCount = 0 ∧
        t.ports[p].framer.missCount = 0 ∧ t.ports[p].framer.runCount = 0 ∧ t.ports[p].framer.lastSequence = none ∧
        t.ports[p].windowDue = true ∧ t.ports[p].silenceDue = true ∧ t.ports[p].store.fifo = [] ∧
        t.ports[p].store.lastAssigned = ⟨Vector.replicate 16 0#24, 0#16, 0#8⟩ ∧
        t.ports[p].store.pickDue = s.ports[p].store.pickDue ∧
        (s.ports[p].store.pickDue = true → t.ports[p].store.kind = .silent ∧
          t.ports[p].store.assigned = ⟨Vector.replicate 16 0#24, 0#16, 0#8⟩) ∧
        (s.ports[p].store.pickDue = false → t.ports[p].store.kind = s.ports[p].store.kind ∧
          t.ports[p].store.assigned = s.ports[p].store.assigned)) ∧
      (∀ i : SlotIdx, t.readSource i = 0) ∧
      (∀ i : SlotIdx,
        t.slots[i].context =
          ⟨.steady, s.routes[i].active.primary, s.routes[i].active.primary, 4096, 0, 0, s.routes[i].active.profile⟩ ∧
        t.slots[i].protection = ⟨.primary, false, none, false⟩ ∧ t.slots[i].meters = ⟨0#16, false, 0⟩ ∧
        t.slots[i].due = ⟨true, false, true, true, true⟩ ∧ t.slots[i].settleFailed = false ∧ t.slots[i].requests = []) ∧
      (∀ n : Fin 4, t.monitors[n] = { s.monitors[n] with state := .under, runCount := 0, evalDue := true }) ∧
      (∀ e : PortIdx,
        t.egress[e] =
          { s.egress[e] with responses := [], transmitter := none, serviceDue := true, frameDue := true }) ∧
      t.channel = ⟨[], .executing, true, s.channel.control⟩ ∧
      t.events =
        { s.events with
          queue := [⟨0#16, .resetDone, s.events.config[EventKind.resetDone.index].priority, 0, 0#16, 3#16, .unsent, false,
            0, 0, false⟩]
          sequence := 1#16, loss := 0#16, path := .running, cause := .soft
          latched := if s.timing.source = none then 0#17 else BitVec.twoPow 17 12 }) ∧
  ∀ s : State, s.timing.atBoundary = false ∨ (s.channel.processor ≠ .resetDue ∧
      ∀ (e : PortIdx) (x : Sending), s.egress[e].transmitter = some x → x.origin = .softReset →
        s.egress[e].serviceDue = false ∨ x.next < (x.bytes.length + 2) / 3) →
    exec .softResetTakesEffect s = .next s

/-! ### Boundaries and the passing of time -/

/-- R46, R174: the opening of a boundary at which nothing of the one before is left to do and before which no miss timer
expires. R48, R49, Table 16: the timing fix, one of its works (R50, log entry 3). Ticks that pass up to a row before the next
boundary. R40: with the first tick that passes, the D and M of the settings come into force. R34: where a miss timer expires
while the ticks pass, before the tick of the row or of the boundary, they pass as the row MISS_TIMEOUT of that port at that tick
and the ticks that are left, the earliest expiry first and of equal ones the lowest port's (the model's choice, log entry 7). -/
def Obligations.BoundaryOpensThePeriod : Prop :=
  (∀ s : State, s.timing.atBoundary = false → NoExpiryBefore s (s.timing.tick + s.timing.remaining) →
    exec (.boundary .opening) s = .next
      { s with
        timing := { s.timing with
          tick := s.timing.tick + s.timing.remaining, remaining := 0
          periodCounter := if s.timing.beforeFirst then s.timing.periodCounter else s.timing.periodCounter + 1#16
          beforeFirst := false, atBoundary := true, fixDue := true }
        ports := mapTable s.ports fun p =>
          { p with
            depthInForce := p.settings.depthCode, missInForce := p.settings.missCode, windowDue := true
            silenceDue := true, store := { p.store with pickDue := true } }
        latching := s.profiles
        entered := Vector.replicate 8 false
        slots := mapTable s.slots fun x =>
          { x with due := { x.due with check := true, protect := true, transition := true, mix := true } }
        monitors := mapTable s.monitors fun m => { m with evalDue := true }
        egress := mapTable s.egress fun e => { e with serviceDue := true, frameDue := true }
        channel := { s.channel with turn := true }
        events := { s.events with
          queue := s.events.queue.map fun r =>
            if r.state = .outstanding ∧ r.stalled = false then { r with age := r.age + 1 } else r } }) ∧
  (∀ (s : State) (state : TimingState) (length : Nat), s.timing.fixDue = true →
    (state, length) = (match s.timing.source with
      | none => (.free, 512)
      | some p =>
        match s.ports[p].state, s.ports[p].average with
        | .locked, some a => (.tracking, if a < 507 then 507 else if 517 < a then 517 else a)
        | _, _ => (.holdover, s.timing.periodLength)) →
    exec (.boundary (.only .timing)) s = .next
      { s with
        timing := { s.timing with state := state, periodLength := length, remaining := length, fixDue := false }
        events :=
          let raised := if state = s.timing.state then s.events else
            s.events.raise s.timing.periodCounter .timingState 0
              (match state with
               | .free => 0#16
               | .tracking => 1#16
               | .holdover => 2#16)
          { raised with
            latched := if state = .holdover then raised.latched ||| BitVec.twoPow 17 12 else raised.latched } }) ∧
  (∀ (s : State) (n : Nat), s.timing.atBoundary = false → n ≠ 0 → n < s.timing.remaining →
    NoExpiryBefore s (s.timing.tick + n) →
    s.elapse n =
      { s with
        ports := mapTable s.ports fun p =>
          { p with depthInForce := p.settings.depthCode, missInForce := p.settings.missCode }
        timing := { s.timing with tick := s.timing.tick + n, remaining := s.timing.remaining - n, atBoundary := false } }) ∧
  ∀ (s : State) (p : PortIdx) (k : Nat), s.timing.atBoundary = false → k < s.timing.remaining →
    ExpiresFirst s p (s.timing.tick + k) →
    ∃ u, exec (.missTimeout p k) s = .next u ∧ u.ports[p].state = .lost ∧ u.timing.tick = s.timing.tick + k ∧
      exec (.boundary .opening) s = exec (.boundary .opening) u ∧
      ∀ n, k < n → n < s.timing.remaining → s.elapse n = u.elapse (n - k)

/-- R46: a whole boundary is its opening and its rest; none of the works stays due, neither does a commit, a report timeout
(R174) or a soft reset (R164), and the processor has looked. The rest is the run of the rows of the works, of which one that is
not due does nothing, in the order the model fixes (log entry 3); away from a boundary it is nothing. -/
def Obligations.BoundaryLeavesNothingDue : Prop :=
  (∀ s : State, ∃ u t, exec (.boundary .opening) s = .next u ∧ exec (.boundary .rest) u = .next t ∧
    exec (.boundary .whole) s = .next t ∧ t.timing.fixDue = false ∧
    (∀ p : PortIdx, t.ports[p].windowDue = false ∧ t.ports[p].silenceDue = false ∧ t.ports[p].store.pickDue = false) ∧
    (∀ i : SlotIdx, t.slots[i].due = ⟨false, false, false, false, false⟩ ∧ t.slots[i].settleFailed = false ∧
      t.slots[i].requests = []) ∧
    (∀ n : Fin 4, t.monitors[n].evalDue = false) ∧
    (∀ e : PortIdx, t.egress[e].serviceDue = false ∧ t.egress[e].frameDue = false) ∧ NoCommitDue t ∧
    (t.channel.turn = false ∨ t.channel.processor ≠ .executing) ∧
    (∀ r ∈ t.events.queue, r.state = .outstanding → r.stalled = false → r.age < 1024) ∧
    t.channel.processor ≠ .resetDue ∧ exec .softResetTakesEffect t = .next t) ∧
  (∀ s : State, s.timing.atBoundary = false → exec (.boundary .rest) s = .next s) ∧
  ∀ s a b : State, s.timing.atBoundary = true →
    a = afterRows
      ([.softResetTakesEffect, .boundary (.only .timing), .boundary (.only .commit)] ++
        (List.finRange 4).flatMap (fun p => [.boundary (.only (.window p)), .boundary (.only (.silence p))]) ++
        (List.finRange 4).map .messageFullySent) s →
    b = afterRows (a.events.queue.map fun r => .reportTimeout r.sequence) a →
    exec (.boundary .rest) s = .next (afterRows
      ([.boundary (.only .look)] ++ (List.finRange 4).map (fun p => .boundary (.only (.pick p))) ++
        (List.finRange 64).flatMap (fun i =>
          [.boundary (.only (.check i)), .boundary (.only (.protect i)), .boundary (.only (.transition i)),
            .boundary (.only (.mix i))]) ++
        (List.finRange 4).map (fun n => .boundary (.only (.monitor n))) ++
        (List.finRange 4).flatMap (fun e => [.boundary (.only (.transmitter e)), .boundary (.only (.frame e))])) b)

/-! ### The works of a boundary -/

/-- R57, R58, R60: what a store gives to the period. -/
def Obligations.PickAssignsAFrame : Prop :=
  ∀ (s : State) (p : PortIdx), s.ports[p].store.pickDue = true →
    (∀ r rest, s.ports[p].state = .locked → s.ports[p].store.fifo = r :: rest →
      exec (.boundary (.only (.pick p))) s = .next
        { s with ports := updateAt s.ports p fun q => { q with store := ⟨rest, r, .picked, r, false, false⟩ } }) ∧
    (s.ports[p].state = .locked → s.ports[p].store.fifo = [] →
      exec (.boundary (.only (.pick p))) s = .next
        { s with
          ports := updateAt s.ports p fun q =>
            { q with
              store := ⟨[], q.store.lastAssigned, .repeated, q.store.lastAssigned, false, false⟩
              counters := { q.counters with
                slipRepeats := if q.counters.slipRepeats = 0xFFFF#16 then 0xFFFF#16 else q.counters.slipRepeats + 1#16 } }
          events :=
            let latched := { s.events with latched := s.events.latched ||| BitVec.twoPow 17 (4 + p.val) }
            if s.events.latched.getLsbD (4 + p.val) then latched
            else latched.raise s.timing.periodCounter .slip ⟨p.val, by omega⟩ 2#16 }) ∧
    (s.ports[p].state ≠ .locked →
      exec (.boundary (.only (.pick p))) s = .next
        { s with
          ports := updateAt s.ports p fun q =>
            { q with
              store :=
                ⟨q.store.fifo, ⟨Vector.replicate 16 0#24, 0#16, 0#8⟩, .silent, q.store.lastAssigned, false, false⟩ } })

/-- R109: the settle check of a slot; and the making of a context whose check has failed, which leaves the slot STEADY for the
requests and the step. -/
def Obligations.SettleCheckFailsOnLostSources : Prop :=
  ∀ (s : State) (i : SlotIdx),
    (s.slots[i].due.check = true → s.slots[i].context.phase = .settle → ¬Available s s.slots[i].context.sounding →
      exec (.boundary (.only (.check i))) s = .next
        { s with
          slots := updateAt s.slots i fun x => { x with settleFailed := true, due := { x.due with check := false } }
          events := s.events.raise s.timing.periodCounter .settleFail i 0#16 }) ∧
    (s.slots[i].due.check = true → s.slots[i].context.phase ≠ .settle ∨ Available s s.slots[i].context.sounding →
      exec (.boundary (.only (.check i))) s = .next
        { s with slots := updateAt s.slots i fun x => { x with due := { x.due with check := false } } }) ∧
    (∀ u, s.slots[i].due = ⟨false, false, false, true, s.slots[i].due.mix⟩ → NoCommitDue s → NoSwitchFor s i →
      s.slots[i].settleFailed = true → s.slots[i].context.phase = .settle →
      u = { s with
        slots := updateAt s.slots i fun x =>
          { x with
            settleFailed := false
            context := { x.context with phase := .steady, phaseLength := 0, phasePosition := 0, level := 4096 } } } →
      exec (.boundary (.only (.transition i))) s = exec (.boundary (.only (.transition i))) u)

/-- R116 to R122, Table 27: the evaluation of a slot, row by row, the request it issues by R115; and the row REVERT, which is the
evaluation that reverts the slot (R120). -/
def Obligations.EvaluationFollowsTable27 : Prop :=
  ∀ (s : State) (i : SlotIdx) (r : RouteRecord) (x : Protection) (act : Protection → State)
    (move : ListSelect → MixList → EventKind → State), s.slots[i].due.protect = true → s.slots[i].due.notice = false →
    NoCommitDue s →
    r = s.routes[i].active → x = s.slots[i].protection →
    (∀ y, act y = { s with slots := updateAt s.slots i fun z =>
      { z with protection := y, due := { z.due with protect := false } } }) →
    (∀ select list kind, move select list kind =
      { s with
        slots := updateAt s.slots i fun z =>
          { z with
            protection := ⟨select, false, none, false⟩, requests := z.requests ++ [⟨list, r.protectProfile⟩]
            due := { z.due with protect := false } }
        events := s.events.raise s.timing.periodCounter kind i 0#16 }) →
    (x.selected = .primary → Available s r.primary →
      exec (.boundary (.only (.protect i))) s = .next (act { x with wtrTimer := none, doubleLoss := false })) ∧
    (x.selected = .primary → ¬Available s r.primary → r.backup = none →
      exec (.boundary (.only (.protect i))) s = .next (act { x with wtrTimer := none })) ∧
    (∀ b, x.selected = .primary → ¬Available s r.primary → r.backup = some b → Available s b →
      exec (.boundary (.only (.protect i))) s = .next (move .backup b .failover)) ∧
    (∀ b, ¬Available s r.primary → r.backup = some b → ¬Available s b →
      exec (.boundary (.only (.protect i))) s = .next
        { act { x with wtrTimer := none, doubleLoss := true } with
          events :=
            let latched := { s.events with latched := s.events.latched ||| BitVec.twoPow 17 13 }
            if x.doubleLoss then latched else latched.raise s.timing.periodCounter .doubleLoss i 0#16 }) ∧
    (∀ b, x.selected = .backup → r.backup = some b → ¬Available s b → Available s r.primary →
      exec (.boundary (.only (.protect i))) s = .next (move .primary r.primary .forcedRevert)) ∧
    (∀ b, x.selected = .backup → r.backup = some b → Available s b →
      ¬Available s r.primary ∨ r.revertMode = .none ∨ x.held = true →
      exec (.boundary (.only (.protect i))) s = .next (act { x with wtrTimer := none, doubleLoss := false })) ∧
    (∀ b n, x.selected = .backup → r.backup = some b → Available s b → Available s r.primary → r.revertMode = .revert →
      x.held = false → n = (match x.wtrTimer with
        | none => r.wtr.toNat
        | some k => k - 1) →
      (n ≠ 0 → exec (.boundary (.only (.protect i))) s = .next (act { x with wtrTimer := some n, doubleLoss := false })) ∧
      (n = 0 → exec (.boundary (.only (.protect i))) s = .next (move .primary r.primary .revert) ∧
        exec (.revert i) s = .next (move .primary r.primary .revert)))

/-- R101 to R108, Table 25: what a retarget request does to a slot, which latches the length of a FADE_OUT it enters as it stands
for the boundary in progress (R94, R98; log entry 20); and R97, R102: the requests that wait for the making of
the slot's context are taken one after another, in the order in which they were issued. -/
def Obligations.RetargetFollowsTable25 : Prop :=
  (∀ (s : State) (i : SlotIdx) (target : MixList) (index : Fin 8) (c : SlotContext) (fo r : Nat)
    (become enter : SlotContext → State), c = s.slots[i].context →
    fo = s.latching[index].fadeOut.val → 4096 * r < c.level * fo + 4096 → c.level * fo ≤ 4096 * r →
    (∀ d, become d = { s with slots := updateAt s.slots i fun x => { x with context := d } }) →
    (∀ d, enter d = { become d with entered := s.entered.set index.val true index.isLt }) →
    (listsEqual target (if c.phase = .steady then c.sounding else c.target) = true →
      State.takeRequest i s ⟨target, index⟩ = become c) ∧
    (c.phase = .steady → listsEqual target c.sounding = false →
      State.takeRequest i s ⟨target, index⟩ =
        enter { c with phase := .fadeOut, target := target, governing := index, phaseLength := fo, phasePosition := 0 }) ∧
    (c.phase = .fadeOut ∨ c.phase = .gap → listsEqual target c.target = false →
      State.takeRequest i s ⟨target, index⟩ =
        (become { c with target := target, governing := index }).raise .transitionSuperseded i 0#16) ∧
    (c.phase = .fadeIn → listsEqual target c.target = false →
      State.takeRequest i s ⟨target, index⟩ =
        (enter { c with phase := .fadeOut, target := target, governing := index, phaseLength := fo
                        phasePosition := fo - r }).raise .transitionSuperseded i 0#16) ∧
    (c.phase = .settle → listsEqual target c.target = false →
      State.takeRequest i s ⟨target, index⟩ =
        (enter { c with phase := .fadeOut, target := target, governing := index, phaseLength := fo
                        phasePosition := 0 }).raise .transitionSuperseded i 0#16)) ∧
  ∀ (s : State) (i : SlotIdx) (r : Request) (rest : List Request),
    s.slots[i].due = ⟨false, false, false, true, s.slots[i].due.mix⟩ → NoCommitDue s → NoSwitchFor s i →
    s.slots[i].settleFailed = false → s.slots[i].requests = r :: rest →
    exec (.boundary (.only (.transition i))) s =
      exec (.boundary (.only (.transition i)))
        (State.takeRequest i { s with slots := updateAt s.slots i fun x => { x with requests := rest } } r)

/-- R68: two lists of the route table are equal exactly when they hold the same terms. -/
def Obligations.EqualListsHoldTheSameTerms : Prop :=
  ∀ a b : MixList, listSound a → listSound b →
    (listsEqual a b = true ↔ ∀ t : Term, t ∈ a ↔ t ∈ b)

/-- R98, R99, R100, R108: the step of a slot whose settle check, evaluation and requests are past; the row PHASE_END is the
step that takes the slot out of its phase. A phase entered latches its length as the governing profile's lengths stand for the
boundary in progress, and settles them for it (R94, log entry 20). -/
def Obligations.StepAdvancesTheSlot : Prop :=
  ∀ (s : State) (i : SlotIdx) (c : SlotContext) (p : Profile) (arrive enter : SlotContext → State),
    s.slots[i].due = ⟨false, false, false, true, s.slots[i].due.mix⟩ → NoCommitDue s → NoSwitchFor s i →
    s.slots[i].settleFailed = false → s.slots[i].requests = [] → c = s.slots[i].context →
    p = s.latching[c.governing] →
    (∀ d, arrive d = { s with slots := updateAt s.slots i fun z =>
      { z with context := d, due := { z.due with transition := false } } }) →
    (∀ d, enter d = { arrive d with entered := s.entered.set c.governing.val true c.governing.isLt }) →
    (c.phase = .steady → exec (.boundary (.only (.transition i))) s = .next (arrive { c with level := 4096 })) ∧
    (c.phase ≠ .steady → c.phasePosition < c.phaseLength →
      exec (.boundary (.only (.transition i))) s = .next (arrive
        { c with
          phasePosition := c.phasePosition + 1
          level := match c.phase with
            | .fadeOut => 4096 * (c.phaseLength - (c.phasePosition + 1)) / c.phaseLength
            | .gap => 0
            | .fadeIn => 4096 * (c.phasePosition + 1) / c.phaseLength
            | .settle => 4096
            | .steady => 4096 })) ∧
    (c.phase ≠ .steady → c.phaseLength ≤ c.phasePosition →
      (c.phase = .fadeOut → 0 < p.gap.val →
        exec (.phaseEnd i) s = .next (enter
          { c with phase := .gap, phaseLength := p.gap.val, phasePosition := 1, level := 0 })) ∧
      ((c.phase = .fadeOut ∧ p.gap.val = 0) ∨ c.phase = .gap → 0 < p.fadeIn.val →
        exec (.phaseEnd i) s = .next (enter
          { c with phase := .fadeIn, sounding := c.target, phaseLength := p.fadeIn.val, phasePosition := 1
                   level := 4096 / p.fadeIn.val })) ∧
      (∀ sounding, ((((c.phase = .fadeOut ∧ p.gap.val = 0) ∨ c.phase = .gap) ∧ p.fadeIn.val = 0 ∧
            sounding = c.target) ∨ (c.phase = .fadeIn ∧ sounding = c.sounding)) → 0 < p.settle.val →
        exec (.phaseEnd i) s = .next (enter
          { c with phase := .settle, sounding := sounding, phaseLength := p.settle.val, phasePosition := 1
                   level := 4096 })) ∧
      (∀ sounding, ((((c.phase = .fadeOut ∧ p.gap.val = 0) ∨ c.phase = .gap) ∧ p.fadeIn.val = 0 ∧ p.settle.val = 0 ∧
            sounding = c.target) ∨ (c.phase = .fadeIn ∧ p.settle.val = 0 ∧ sounding = c.sounding) ∨
            (c.phase = .settle ∧ sounding = c.sounding)) →
        exec (.phaseEnd i) s = .next
          { (if c.phase = .settle then arrive else enter)
              { c with phase := .steady, sounding := sounding, phaseLength := 0, phasePosition := 0, level := 4096 }
            with events := s.events.raise s.timing.periodCounter .transitionDone i 0#16 }) ∧
      exec (.boundary (.only (.transition i))) s = exec (.phaseEnd i) s)

/-- R130 to R133, R135, R136: the output sample and slot-valid flag of a slot whose context is made, and the picks of the
ports its terms name, and its meters. A store soft-reset after its pick reads silent (R145, log entry 19). Where picks are
due, the mix takes them first, the lowest port first (the model's choice, log entry 17); so the order of the terms has no
effect, on a SLIP neither (R66). -/
def Obligations.MixComputesAndMetersTheSample : Prop :=
  (∀ (s : State) (i : SlotIdx) (c : SlotContext) (read : Term → Int) (value sample : Int) (out : Sample),
    s.slots[i].due = ⟨false, false, false, false, true⟩ → c = s.slots[i].context →
    (∀ t ∈ c.sounding, s.ports[laneOf t.source].store.pickDue = false) →
    (∀ t : Term, read t =
      if s.ports[laneOf t.source].store.hushed = false ∧
          s.ports[laneOf t.source].store.assigned.valid.getLsbD (t.source.val % 16) = true then
        s.ports[laneOf t.source].store.assigned.samples[slotInLane t.source].toInt
      else 0) →
    value = (c.sounding.map fun t => (if t.invert then -1 else 1) * (read t * t.gain.toNat)).sum * c.level /
      (16384 * 4096) →
    (8388607 < value → sample = 8388607) → (value < -8388608 → sample = -8388608) →
    (-8388608 ≤ value → value ≤ 8388607 → sample = value) → out.toInt = sample →
    exec (.boundary (.only (.mix i))) s = .next
      { s with
        slots := updateAt s.slots i fun x =>
          { x with
            output :=
              { sample := out
                valid := !((c.phase = .steady || c.phase = .settle) && c.sounding.isEmpty) }
            meters :=
              { clipCounter :=
                  if value = sample ∨ x.meters.clipCounter = 0xFFFF#16 then x.meters.clipCounter
                  else x.meters.clipCounter + 1#16
                clipFlag := if value = sample then x.meters.clipFlag else true
                peak := max x.meters.peak sample.natAbs }
            due := ⟨false, false, false, false, false⟩ }
        events :=
          if value = sample then s.events
          else
            let latched := { s.events with latched := s.events.latched ||| BitVec.twoPow 17 14 }
            if s.slots[i].meters.clipFlag then latched
            else latched.raise s.timing.periodCounter .clip i 0#16 }) ∧
  (∀ (s : State) (i : SlotIdx) (p : PortIdx), s.slots[i].due = ⟨false, false, false, false, true⟩ →
    (∃ t ∈ s.slots[i].context.sounding, laneOf t.source = p) → s.ports[p].store.pickDue = true →
    (∀ t ∈ s.slots[i].context.sounding, laneOf t.source < p → s.ports[laneOf t.source].store.pickDue = false) →
    ∃ u, exec (.boundary (.only (.pick p))) s = .next u ∧
      exec (.boundary (.only (.mix i))) s = exec (.boundary (.only (.mix i))) u) ∧
  ∀ (s : State) (i : SlotIdx) (l : MixList) (reordered : State → State), s.slots[i].due = ⟨false, false, false, false, true⟩ →
    l.Perm s.slots[i].context.sounding →
    (∀ u, reordered u =
      { u with slots := updateAt u.slots i fun x => { x with context := { x.context with sounding := l } } }) →
    ∃ t, exec (.boundary (.only (.mix i))) s = .next t ∧
      exec (.boundary (.only (.mix i))) (reordered s) = .next (reordered t)

/-- R140, R141, R142: a monitor's evaluation of its subject's sample; the row LEVEL_HOLD_REACHED is the evaluation that
brings the run count to the hold. -/
def Obligations.MonitorEvaluatesItsSubject : Prop :=
  ∀ (s : State) (n : Fin 4) (x : Monitor) (below : Bool) (stand : MonitorState → Nat → State), x = s.monitors[n] →
    x.evalDue = true → s.slots[x.subject].due.transition = false → s.slots[x.subject].due.mix = false →
    below = decide (s.slots[x.subject].output.sample.toInt.natAbs < x.threshold) →
    (∀ state run, stand state run = { s with monitors := updateAt s.monitors n fun y =>
      { y with state := state, runCount := run, evalDue := false } }) →
    (x.enabled = false → exec (.boundary (.only (.monitor n))) s = .next (stand x.state x.runCount)) ∧
    (x.enabled = true →
      ((x.mode = .above ∧ x.state = .under ∧ below = true) ∨ (x.mode = .above ∧ x.state = .over ∧ below = false) ∨
          (x.mode = .below ∧ x.state = .under ∧ below = false) ∨ (x.mode = .below ∧ x.state = .over ∧ below = true) →
        exec (.boundary (.only (.monitor n))) s = .next (stand x.state 0)) ∧
      (x.mode = .above → x.state = .under → below = false →
        exec (.boundary (.only (.monitor n))) s = .next ((stand .over 0).raise .levelOver ⟨n.val, by omega⟩ 0#16)) ∧
      (x.mode = .below → x.state = .over → below = false →
        exec (.boundary (.only (.monitor n))) s = .next ((stand .under 0).raise .levelUnder ⟨n.val, by omega⟩ 0#16)) ∧
      ((x.mode = .above ∧ x.state = .over) ∨ (x.mode = .below ∧ x.state = .under) → below = true →
        (x.runCount + 1 < x.hold → exec (.boundary (.only (.monitor n))) s = .next (stand x.state (x.runCount + 1))) ∧
        (x.hold ≤ x.runCount + 1 →
          exec (.levelHoldReached n) s = .next
            (if x.state = .over then (stand .under 0).raise .levelUnder ⟨n.val, by omega⟩ 0#16
             else (stand .over 0).raise .levelOver ⟨n.val, by omega⟩ 0#16) ∧
          exec (.boundary (.only (.monitor n))) s = exec (.levelHoldReached n) s)))

/-! ### Lanes: the framer and the ingress port -/

/-- R4, R6, R10: the examined frames that are not taken: a candidate, and a frame with its marker and a bad CRC. `u` is the
part at the row's tick. -/
def Obligations.FramesNotTakenMoveTheFramer : Prop :=
  ∀ (s u : State) (p : PortIdx) (elapsed position : Nat) (f : LaneFrame), u = s.elapse elapsed →
    u.ports[p].enabled = true → markerPresent f = true →
    (u.ports[p].framer.state = .searching → u.ports[p].framer.position ≤ position →
      exec (.candidate p elapsed position f) s = .next
        { u with
          ports := updateAt u.ports p fun q =>
            { q with
              framer :=
                if crcCorrect f then
                  { q.framer with state := .confirming, candidate := position, confirmCount := 1, position := position + 472 }
                else { q.framer with position := position + 1 } } }) ∧
    (u.ports[p].framer.state = .aligned → crcCorrect f = false →
      exec (.crcErrorFrame p elapsed f) s = .next
        { u with
          ports := updateAt u.ports p fun q =>
            { q with
              framer := { q.framer with missCount := 0, runCount := 0, position := q.framer.position + 472 }
              counters := { q.counters with
                crcErrors := if q.counters.crcErrors = 0xFFFF#16 then 0xFFFF#16 else q.counters.crcErrors + 1#16 } } })

/-- R5, R23: the frames that confirm a candidate. The third declares alignment and is the stream's first arrival, whose
service field the reassembly buffer takes; a look that must not come after it comes first (the model's reading, `LeadsTo`, log
entry 4). -/
def Obligations.ConfirmingFramesDeclareAlignment : Prop :=
  ∀ (s u : State) (p : PortIdx) (elapsed : Nat) (f : LaneFrame), u = s.elapse elapsed →
    u.ports[p].enabled = true → u.ports[p].framer.state = .confirming →
    (frameValid f = false →
      exec (.confirmingFrame p elapsed f) s = .next
        { u with
          ports := updateAt u.ports p fun q =>
            { q with
              framer := { q.framer with
                state := .searching, confirmCount := 0, position := q.framer.candidate + 1 } } }) ∧
    (frameValid f = true → u.ports[p].framer.confirmCount = 1 →
      exec (.confirmingFrame p elapsed f) s = .next
        { u with
          ports := updateAt u.ports p fun q =>
            { q with framer := { q.framer with confirmCount := 2, position := q.framer.position + 472 } } }) ∧
    (frameValid f = true → u.ports[p].framer.confirmCount = 2 → u.ports[p].framer.lastSequence = none →
      u.ports[p].state = .search ∨ u.ports[p].state = .lost →
      LeadsTo (.confirmingFrame p elapsed f) s
        ((u.updatePort p fun q =>
            { q with
              framer := { q.framer with
                state := .aligned, confirmCount := 3, missCount := 0, runCount := 3
                position := q.framer.position + 472, lastSequence := some f[2] }
              state := .qualify, origin := some (if q.state = .lost then .lost else .search)
              windowCounter := q.window, arrivalCounter := 0
              history := if q.state = .lost then [] else q.history
              lastArrival := some ⟨u.timing.tick, f[2]⟩ }).takeFragment p f[5] [f[6], f[7], f[8]]))

/-- R7, R23, R24, R26, R28, R31, R36: an arrival at a port that waits or qualifies. Its framer and its last sequence come
first, then the port, then the service field, which the reassembly buffer takes; a look that must not come after the arrival
comes first (the model's reading, `LeadsTo`, log entry 4). -/
def Obligations.ArrivalsQualifyAPort : Prop :=
  ∀ (s u : State) (p : PortIdx) (elapsed : Nat) (f : LaneFrame) (q : Port), u = s.elapse elapsed →
    frameValid f = true → u.ports[p].enabled = true → u.ports[p].framer.state = .aligned →
    q = u.ports[p].framed f[2] →
    (u.ports[p].state = .search ∨ u.ports[p].state = .lost →
      LeadsTo (.arrival p elapsed f) s
        ((u.updatePort p fun _ =>
          if u.ports[p].framer.runCount = 2 then
            { q with
              state := .qualify, origin := some (if q.state = .lost then .lost else .search), windowCounter := q.window
              arrivalCounter := 0, history := if q.state = .lost then [] else q.history
              lastArrival := some ⟨u.timing.tick, f[2]⟩ }
          else q).takeFragment p f[5] [f[6], f[7], f[8]])) ∧
    (u.ports[p].state = .qualify → q.arrivalCounter ≠ q.window + q.tolerance ∨ q.windowCounter = 0 →
      LeadsTo (.arrival p elapsed f) s
        ((u.updatePort p fun _ =>
          { q.recorded u.timing.tick f[2] with arrivalCounter := q.arrivalCounter + 1 }).takeFragment p f[5]
          [f[6], f[7], f[8]])) ∧
    (u.ports[p].state = .qualify → q.arrivalCounter = q.window + q.tolerance → q.windowCounter ≠ 0 →
      q.origin = some .search →
      LeadsTo (.arrival p elapsed f) s
        (((((u.updatePort p fun _ =>
          { q with
            state := .search, origin := none, windowCounter := 0, arrivalCounter := 0, history := [], lastArrival := none
            framer := { q.framer with runCount := 0 } }).raise .qualifyFail ⟨p.val, by omega⟩ 2#16).latch
          ⟨8 + p.val, by omega⟩)).takeFragment p f[5] [f[6], f[7], f[8]])) ∧
    (u.ports[p].state = .qualify → q.arrivalCounter = q.window + q.tolerance → q.windowCounter ≠ 0 →
      q.origin = some .lost →
      LeadsTo (.arrival p elapsed f) s
        ((((((u.updatePort p fun _ =>
          { q.recorded u.timing.tick f[2] with
            state := .lost, origin := none, windowCounter := 0, arrivalCounter := 0
            framer := { q.framer with runCount := 0 } }).raise .qualifyFail ⟨p.val, by omega⟩ 2#16).latch
          ⟨8 + p.val, by omega⟩)).latch ⟨p.val, by omega⟩).takeFragment p f[5] [f[6], f[7], f[8]]))

/-- R7, R30, R31, R55, R56, R60: an arrival at a port in PRIME or LOCKED is recorded and its frame appended; a PRIME port
locks at its prime centre, and a full store drops its oldest frame. A look that must not come after the arrival comes first
(the model's reading, `LeadsTo`, log entry 4). -/
def Obligations.ArrivalsFillTheStore : Prop :=
  ∀ (s u : State) (p : PortIdx) (elapsed : Nat) (f : LaneFrame) (q : Port) (record : FrameRecord),
    u = s.elapse elapsed → frameValid f = true → u.ports[p].enabled = true →
    u.ports[p].framer.state = .aligned → q = (u.ports[p].framed f[2]).recorded u.timing.tick f[2] →
    record = ⟨Vector.ofFn (frameSample f), f[3] ++ f[4], f[2]⟩ →
    (q.state = .locked ∨ q.state = .prime → q.store.fifo.length < 8 →
      (q.state = .locked ∨ q.store.fifo.length + 1 < q.primeCentre →
        LeadsTo (.arrival p elapsed f) s
          ((u.updatePort p fun _ => { q with store := { q.store with fifo := q.store.fifo ++ [record] } }).takeFragment p
            f[5] [f[6], f[7], f[8]])) ∧
      (q.state = .prime → q.primeCentre ≤ q.store.fifo.length + 1 →
        LeadsTo (.arrival p elapsed f) s
          (((u.updatePort p fun _ =>
            { q with state := .locked, store := { q.store with fifo := q.store.fifo ++ [record] } }).raise .portLocked
            ⟨p.val, by omega⟩ 0#16).takeFragment p f[5] [f[6], f[7], f[8]]))) ∧
    (q.state = .locked → q.store.fifo.length = 8 →
      LeadsTo (.arrival p elapsed f) s
        (({ u.updatePort p fun _ =>
              { q with
                store := { q.store with fifo := q.store.fifo.drop 1 ++ [record] }
                counters := { q.counters with
                  slipDrops := if q.counters.slipDrops = 0xFFFF#16 then 0xFFFF#16 else q.counters.slipDrops + 1#16 } }
            with
            events :=
              let latched := { u.events with latched := u.events.latched ||| BitVec.twoPow 17 (4 + p.val) }
              if u.events.latched.getLsbD (4 + p.val) then latched
              else latched.raise u.timing.periodCounter .slip ⟨p.val, by omega⟩ 1#16 } : State).takeFragment p f[5]
          [f[6], f[7], f[8]]))

/-- R6, R8, R27, R28, R35: the first missing marker is counted, and the second loses alignment, by the state of the port. -/
def Obligations.MissingMarkersLoseAlignment : Prop :=
  ∀ (s u : State) (p : PortIdx) (elapsed : Nat) (f : LaneFrame) (q : Port), u = s.elapse elapsed →
    markerPresent f = false → u.ports[p].enabled = true → u.ports[p].framer.state = .aligned →
    (u.ports[p].framer.missCount = 0 →
      exec (.missingMarker p elapsed f) s = .next
        (u.updatePort p fun x =>
          { x with framer := { x.framer with missCount := 1, runCount := 0, position := x.framer.position + 472 } })) ∧
    (u.ports[p].framer.missCount = 1 →
      q = { u.ports[p] with
        framer := { u.ports[p].framer with
          state := .searching, missCount := 0, runCount := 0, confirmCount := 0, lastSequence := none }
        counters := { u.ports[p].counters with
          alignmentLosses :=
            if u.ports[p].counters.alignmentLosses = 0xFFFF#16 then 0xFFFF#16
            else u.ports[p].counters.alignmentLosses + 1#16 } } →
      (q.state = .search ∨ q.state = .lost →
        exec (.missingMarker p elapsed f) s = .next (u.updatePort p fun _ => q)) ∧
      (q.state = .qualify → q.origin = some .search →
        exec (.missingMarker p elapsed f) s = .next
          (((u.updatePort p fun _ =>
            { q with
              state := .search, origin := none, windowCounter := 0, arrivalCounter := 0, history := []
              lastArrival := none }).raise .qualifyFail ⟨p.val, by omega⟩ 3#16).latch ⟨8 + p.val, by omega⟩)) ∧
      (q.state = .qualify → q.origin = some .lost →
        exec (.missingMarker p elapsed f) s = .next
          ((((u.updatePort p fun _ =>
            { q with state := .lost, origin := none, windowCounter := 0, arrivalCounter := 0 }).raise .qualifyFail
            ⟨p.val, by omega⟩ 3#16).latch ⟨8 + p.val, by omega⟩).latch ⟨p.val, by omega⟩)) ∧
      (q.state = .prime ∨ q.state = .locked →
        exec (.missingMarker p elapsed f) s = .next
          (((u.updatePort p fun _ =>
            { q with state := .lost, store := { q.store with fifo := [], lastAssigned := silentFrame } }).raise .portLost
            ⟨p.val, by omega⟩ 0#16).latch ⟨p.val, by omega⟩)))

/-- R24, R25, R28, R29: the boundary decreases the window counter by 1, and the one that brings it to 0 completes the window,
which passes with W−T arrivals or more and fails as slow with fewer. At an earlier boundary the row changes nothing (the
model's choice, log entry 2). -/
def Obligations.WindowsCompleteByTheirCount : Prop :=
  ∀ (s : State) (p : PortIdx) (q : Port), q = s.ports[p] → q.state = .qualify → q.windowDue = true →
    q.framer.state = .aligned →
    (2 ≤ q.windowCounter → exec (.windowComplete p) s = .next s ∧
      exec (.boundary (.only (.window p))) s = .next (s.updatePort p fun x =>
        { x with windowCounter := x.windowCounter - 1, windowDue := false })) ∧
    (q.windowCounter = 1 → exec (.boundary (.only (.window p))) s = exec (.windowComplete p) s) ∧
    (q.windowCounter = 1 → q.window ≤ q.arrivalCounter + q.tolerance →
      exec (.windowComplete p) s = .next (s.updatePort p fun x =>
        { x with state := .prime, origin := none, windowCounter := 0, arrivalCounter := 0, windowDue := false })) ∧
    (q.windowCounter = 1 → q.arrivalCounter + q.tolerance < q.window → q.origin = some .search →
      exec (.windowComplete p) s = .next
        (((s.updatePort p fun x =>
          { x with
            state := .search, origin := none, windowCounter := 0, arrivalCounter := 0, windowDue := false, history := []
            lastArrival := none
            framer := { x.framer with runCount := 0 } }).raise .qualifyFail ⟨p.val, by omega⟩ 1#16).latch
          ⟨8 + p.val, by omega⟩)) ∧
    (q.windowCounter = 1 → q.arrivalCounter + q.tolerance < q.window → q.origin = some .lost →
      exec (.windowComplete p) s = .next
        ((((s.updatePort p fun x =>
          { x with
            state := .lost, origin := none, windowCounter := 0, arrivalCounter := 0, windowDue := false
            framer := { x.framer with runCount := 0 } }).raise .qualifyFail ⟨p.val, by omega⟩ 1#16).latch
          ⟨8 + p.val, by omega⟩).latch ⟨p.val, by omega⟩))

/-- R32, R34, R35: the miss timer of a PRIME or LOCKED port takes it to LOST exactly when its count exceeds the miss window.
`u` is the part at the row's tick (the model's passing of time, log entry 7), and `average` the mean of the newest D intervals,
halves rounded up; D and M are those in force in that tick. Before the timer expires the row changes nothing but the time its
operand lets pass (the model's choice, log entry 2). -/
def Obligations.MissTimerTakesThePortToLost : Prop :=
  ∀ (s u : State) (p : PortIdx) (elapsed sum average window : Nat) (a : RecordedArrival), u = s.elapse elapsed →
    u.ports[p].lastArrival = some a → u.ports[p].state = .prime ∨ u.ports[p].state = .locked →
    sum = ((u.ports[p].history.drop (u.ports[p].history.length - u.ports[p].depth)).map (·.toNat)).sum →
    (2 * sum < 2 * average * u.ports[p].depth + u.ports[p].depth ∧
      2 * average * u.ports[p].depth ≤ 2 * sum + u.ports[p].depth) →
    window = u.ports[p].missFactor * (if u.ports[p].depth ≤ u.ports[p].history.length then average else 512) →
    (window < u.timing.tick - a.tick →
      exec (.missTimeout p elapsed) s = .next
        (((u.updatePort p fun q =>
          { q with
            state := .lost, store := { q.store with fifo := [], lastAssigned := silentFrame }
            framer := if q.framer.state = .aligned then { q.framer with runCount := 0 } else q.framer }).raise .portLost
          ⟨p.val, by omega⟩ 0#16).latch ⟨p.val, by omega⟩)) ∧
    (u.timing.tick - a.tick ≤ window → exec (.missTimeout p elapsed) s = .next u)

/-! ### Messages: reassembly, transmission and the egress frames -/

/-- R147, R148, R149: what the reassembly buffer does with a fragment; its silence count at a boundary, and its timeout. Before
the 256th boundary of silence the row REASSEMBLY_TIMEOUT changes nothing (the model's choice, log entry 2). -/
def Obligations.FragmentsFollowTable33 : Prop :=
  ∀ (s : State) (p : PortIdx) (kind index : Nat) (payload : List Byte) (rejected : State → Word16 → State),
    (∀ x d, rejected x d = (x.updatePort p fun q => { q with reassembly := none }).mgmtError p d) → kind < 8 →
    index < 32 →
    (kind = 0 → s.takeFragment p (makeTag kind index) payload = s) ∧
    (5 ≤ kind → s.takeFragment p (makeTag kind index) payload = rejected s 1#16) ∧
    (1 ≤ kind → kind ≤ 4 → 22 ≤ index → s.takeFragment p (makeTag kind index) payload = rejected s 3#16) ∧
    (kind = 1 ∨ kind = 4 → 1 ≤ index → index ≤ 21 →
      s.takeFragment p (makeTag kind index) payload = rejected s 1#16) ∧
    (kind = 1 → index = 0 →
      s.takeFragment p (makeTag kind index) payload =
        (if s.ports[p].reassembly = none then s else rejected s 1#16).updatePort p fun q =>
          { q with reassembly := some ⟨payload, 1, 0⟩ }) ∧
    (kind = 4 → index = 0 →
      s.takeFragment p (makeTag kind index) payload =
        (if s.ports[p].reassembly = none then s else rejected s 1#16).completeMessage p payload) ∧
    (kind = 2 ∨ kind = 3 → index ≤ 21 → (∀ b ∈ s.ports[p].reassembly, b.expected ≠ index) →
      s.takeFragment p (makeTag kind index) payload = rejected s 1#16) ∧
    (∀ b, s.ports[p].reassembly = some b → b.expected = index → index ≤ 21 →
      (kind = 2 →
        s.takeFragment p (makeTag kind index) payload = s.updatePort p fun q =>
          { q with reassembly := some ⟨b.bytes ++ payload, index + 1, 0⟩ }) ∧
      (kind = 3 →
        s.takeFragment p (makeTag kind index) payload =
          (s.updatePort p fun q => { q with reassembly := none }).completeMessage p (b.bytes ++ payload))) ∧
    (∀ b, s.ports[p].reassembly = some b → s.ports[p].silenceDue = true →
      (b.silence + 1 < 256 → exec (.reassemblyTimeout p) s = .next s ∧
        exec (.boundary (.only (.silence p))) s = .next (s.updatePort p fun q =>
          { q with reassembly := some { b with silence := b.silence + 1 }, silenceDue := false })) ∧
      (256 ≤ b.silence + 1 →
        exec (.reassemblyTimeout p) s = .next (rejected (s.updatePort p fun q => { q with silenceDue := false }) 2#16) ∧
        exec (.boundary (.only (.silence p))) s = exec (.reassemblyTimeout p) s))

/-- R151, R152, R153, R165: what becomes of a complete message, by its length byte, the room in the command queue and the
room in its response queue; and the counter and the event of each management error, at 65,535 too. -/
def Obligations.CompleteMessagesAreQueuedOrAnswered : Prop :=
  (∀ (s : State) (p : PortIdx) (code tag : Byte) (rest : List Byte) (l : Byte) (bytes : List Byte)
    (answered : Byte → Word16 → State), bytes = l :: code :: tag :: rest →
    (∀ status detail, answered status detail =
      if s.egress[p].enabled = false then s
      else if s.egress[p].responses.length < 4 then
        s.updateEgress p fun e =>
          { e with responses := e.responses ++ [⟨[4#8, code ||| 0x80#8, tag, status], .response⟩] }
      else s.mgmtError p detail) →
    (l.toNat < 3 → s.completeMessage p bytes = s.mgmtError p 3#16) ∧
    (3 ≤ l.toNat → 64 < l.toNat ∨ bytes.length < l.toNat ∨ l.toNat + 2 < bytes.length →
      s.completeMessage p bytes = answered 2#8 3#16) ∧
    (3 ≤ l.toNat → l.toNat ≤ 64 → l.toNat ≤ bytes.length → bytes.length ≤ l.toNat + 2 →
      (s.channel.queue.length < 8 →
        s.completeMessage p bytes =
          { s with channel := { s.channel with queue := s.channel.queue ++ [⟨p, bytes.take l.toNat⟩] } }) ∧
      (8 ≤ s.channel.queue.length → s.completeMessage p bytes = answered 1#8 4#16))) ∧
  ∀ (s : State) (p : PortIdx) (bump : Word16 → Word16), (∀ c, bump c = if c = 0xFFFF#16 then 0xFFFF#16 else c + 1#16) →
    ∀ (detail : Word16) (change : PortCounters → PortCounters),
      (detail = 1#16 ∧ change = fun c => { c with fragmentErrors := bump c.fragmentErrors }) ∨
        (detail = 2#16 ∧ change = fun c => { c with reassemblyTimeouts := bump c.reassemblyTimeouts }) ∨
        (detail = 3#16 ∧ change = fun c => { c with lengthErrors := bump c.lengthErrors }) ∨
        (detail = 4#16 ∧ change = fun c => { c with busyDrops := bump c.busyDrops }) →
      s.mgmtError p detail =
        (s.updatePort p fun q => { q with counters := change q.counters }).raise .mgmtError ⟨p.val, by omega⟩ detail

/-- R12, R13, R147, R151, R152: the fragments of a message, taken one after another by an idle buffer, put that message into
the command queue. -/
def Obligations.FragmentsOfAMessageReassemble : Prop :=
  ∀ (s : State) (p : PortIdx) (m : Message), m.wellFormed = true → m.source = p → s.ports[p].reassembly = none →
    s.channel.queue.length < 8 →
    (List.range (fragmentCount m.bytes.length)).foldl
        (fun x j => x.takeFragment p (fragmentOf m.bytes j).tag (fragmentOf m.bytes j).payload.toList) s =
      { s with channel := { s.channel with queue := s.channel.queue ++ [m] } }

/-- R1, R2, R3, R18, Table 3: the bytes of an egress frame, its CRC bit by bit over bytes 2 to 56, most significant bit first,
by the generator x^16 + x^12 + x^5 + 1 from 0xFFFF; it is valid at the partner that receives it, and every field reads back. -/
def Obligations.EgressFramesReadBack : Prop :=
  ∀ (sequence : Byte) (valid : Word16) (field : ServiceField) (samples : Vector Sample 16) (f : LaneFrame)
    (shift : Word16 → Bool → Word16), f = buildFrame sequence valid field samples →
    (∀ c bit, shift c bit = (c <<< 1) ^^^ (if c.getLsbD 15 != bit then 0x1021#16 else 0#16)) →
    f[0] = 0xB4#8 ∧ f[1] = 0x2D#8 ∧ f[2] = sequence ∧ f[3].toNat = valid.toNat / 256 ∧ f[4].toNat = valid.toNat % 256 ∧
      f[5] = field.tag ∧ f[6] = field.payload[0] ∧ f[7] = field.payload[1] ∧ f[8] = field.payload[2] ∧
      (∀ k : Fin 16, (f[9 + 3 * k.val]'(by omega)).toNat = samples[k].toNat / 65536 ∧
        (f[10 + 3 * k.val]'(by omega)).toNat = samples[k].toNat / 256 % 256 ∧
        (f[11 + 3 * k.val]'(by omega)).toNat = samples[k].toNat % 256) ∧
      f[57] ++ f[58] = (((f.toList.drop 2).take 55).flatMap fun b => (List.range 8).map fun j =>
        b.getLsbD (7 - j)).foldl shift 0xFFFF#16 ∧
      frameValid f = true ∧ frameSequence f = sequence ∧ frameValidMap f = valid ∧ frameTag f = field.tag ∧
      framePayload f = field.payload.toList ∧ ∀ k : Fin 16, frameSample f k = samples[k]

/-- R12, R157, R173: the field a service transmitter supplies for the frame of the period: the next fragment of the message
it is sending, the first of one it picks, a response before a report, or the idle field. The pick of a response frees its
place, and a look that must not come after that comes first (the model's reading, `LeadsTo`, log entry 4). R18, R19,
R133, R134: the frame of an egress port whose 16 samples are made carries that field, and its lane is idle while the port is
disabled. R12, R13: the tag and the payload of a message's fragment `j`; R17, Table 9: the 12 bytes of a report. -/
def Obligations.FramesCarryTheTransmittersFragment : Prop :=
  (∀ (s : State) (e : PortIdx) (supply : Option Sending → ServiceField → Egress → Egress),
    (∀ x field y, supply x field y = { y with transmitter := x, field := field, serviceDue := false }) →
    (s.egress[e].serviceDue = true →
      (s.egress[e].enabled = false →
        exec (.boundary (.only (.transmitter e))) s = .next (s.updateEgress e fun y => { y with serviceDue := false })) ∧
      (∀ x, s.egress[e].enabled = true → s.egress[e].transmitter = some x → (x.bytes.length + 2) / 3 ≤ x.next →
        ∃ u, exec (.messageFullySent e) s = .next u ∧
          exec (.boundary (.only (.transmitter e))) s = exec (.boundary (.only (.transmitter e))) u) ∧
      (∀ x, s.egress[e].enabled = true → s.egress[e].transmitter = some x → x.next < (x.bytes.length + 2) / 3 →
        exec (.boundary (.only (.transmitter e))) s = .next (s.updateEgress e
          (supply (some { x with next := x.next + 1 }) (fragmentOf x.bytes x.next)))) ∧
      (∀ r rest, s.egress[e].enabled = true → s.egress[e].transmitter = none → s.egress[e].responses = r :: rest →
        LeadsTo (.boundary (.only (.transmitter e))) s (s.updateEgress e fun y =>
          { supply (some ⟨r.bytes, 1, r.origin⟩) (fragmentOf r.bytes 0) y with responses := rest })) ∧
      (s.egress[e].enabled = true → s.egress[e].transmitter = none → s.egress[e].responses = [] →
        ((e ≠ s.channel.control ∨ s.events.path = .stalled ∨
            4 ≤ s.events.queue.countP (fun r => r.state = .outstanding || r.inTransmission) ∨
            ∀ r ∈ s.events.queue, r.state = .unsent → r.inTransmission = true) →
          exec (.boundary (.only (.transmitter e))) s = .next (s.updateEgress e
            (supply none ⟨0#8, Vector.replicate 3 0#8⟩))) ∧
        (∀ before r after, e = s.channel.control → s.events.path = .running →
          s.events.queue.countP (fun r => r.state = .outstanding || r.inTransmission) < 4 →
          s.events.queue = before ++ r :: after → r.state = .unsent → r.inTransmission = false →
          (∀ x ∈ before, x.state = .unsent → x.inTransmission = true) → (s.events.queue.map (·.sequence)).Nodup →
          exec (.boundary (.only (.transmitter e))) s = .next
            ({ s with
               egress := updateAt s.egress e
                 (supply (some ⟨reportBytes r, 1, .report r.sequence⟩) (fragmentOf (reportBytes r) 0))
               events := { s.events with queue := before ++ { r with inTransmission := true } :: after } } : State)))) ∧
    (s.egress[e].frameDue = true →
      (∀ k : Fin 16, s.slots[slotIndex e k].due.transition = false ∧ s.slots[slotIndex e k].due.mix = false) →
      (s.egress[e].serviceDue = true → ∃ u, exec (.boundary (.only (.transmitter e))) s = .next u ∧
        exec (.boundary (.only (.frame e))) s = exec (.boundary (.only (.frame e))) u) ∧
      (s.egress[e].serviceDue = false → ∃ valid : Word16,
        (∀ k : Fin 16, valid.getLsbD k.val = s.slots[slotIndex e k].output.valid) ∧
        exec (.boundary (.only (.frame e))) s = .next (s.updateEgress e fun y =>
          { y with
            lane := if y.enabled then
                some (buildFrame (s.timing.periodCounter.setWidth 8) valid y.field
                  (Vector.ofFn fun k => s.slots[slotIndex e k].output.sample))
              else none
            frameDue := false })))) ∧
  (∀ (bytes : List Byte) (j : Nat), 3 ≤ bytes.length → j < (bytes.length + 2) / 3 →
    fragmentOf bytes j =
      { tag := BitVec.ofNat 8
          (32 * (if bytes.length = 3 then 4 else if j = 0 then 1 else if 3 * j + 3 < bytes.length then 2 else 3) + j)
        payload := #v[bytes.getD (3 * j) 0#8, bytes.getD (3 * j + 1) 0#8, bytes.getD (3 * j + 2) 0#8] }) ∧
  ∀ r : EventRecord, reportBytes r =
    [12#8, 0x7E#8, 0#8, r.sequence.extractLsb' 8 8, r.sequence.extractLsb' 0 8,
      match r.kind with
      | .resetDone => 0x01#8
      | .portLost => 0x02#8
      | .portLocked => 0x03#8
      | .qualifyFail => 0x04#8
      | .slip => 0x05#8
      | .timingState => 0x06#8
      | .commitDone => 0x07#8
      | .transitionDone => 0x08#8
      | .transitionSuperseded => 0x09#8
      | .settleFail => 0x0A#8
      | .failover => 0x0B#8
      | .revert => 0x0C#8
      | .forcedRevert => 0x0D#8
      | .doubleLoss => 0x0E#8
      | .clip => 0x0F#8
      | .levelOver => 0x10#8
      | .levelUnder => 0x11#8
      | .mgmtError => 0x12#8
      | .controlMoved => 0x13#8
      | .eventLoss => 0x14#8,
      BitVec.ofNat 8 r.priority.val, BitVec.ofNat 8 r.subject.val, r.stamp.extractLsb' 8 8, r.stamp.extractLsb' 0 8,
      r.detail.extractLsb' 8 8, r.detail.extractLsb' 0 8]

/-- R157, R164, R174: a message whose last fragment has left is fully sent, with the effect of what it is. -/
def Obligations.MessagesFullySentHaveTheirEffect : Prop :=
  ∀ (s : State) (e : PortIdx) (x : Sending) (idle : State), s.egress[e].transmitter = some x →
    s.egress[e].serviceDue = true → (x.bytes.length + 2) / 3 ≤ x.next →
    idle = s.updateEgress e (fun y => { y with transmitter := none }) →
    (x.origin = .response → exec (.messageFullySent e) s = .next idle) ∧
    (x.origin = .softReset →
      exec (.messageFullySent e) s = .next { idle with channel := { s.channel with processor := .resetDue } }) ∧
    (∀ n, x.origin = .report n →
      exec (.messageFullySent e) s = .next
        { idle with
          events := { s.events with
            queue := s.events.queue.map fun r =>
              if r.sequence = n ∧ r.inTransmission = true then
                { r with inTransmission := false, state := .outstanding, sendCount := r.sendCount + 1, age := 0 }
              else r } })

/-! ### Commits, reports and the event queue -/

/-- R85, R86, R87, R123: a commit takes effect at its period. The row is the commit unit's own work, by which every dirty
entry of its lanes becomes active and COMMIT_DONE reports the count, and the protection unit's for each replaced slot: the
notice, which selects a list by the table of R123, the commit's request for that list under the new record's profile, and the
evaluation, which finds a double loss where both lists are not available. The protection unit's work for one slot can be taken
by itself (R124). That COMMIT_DONE comes before any notice is the model's choice (log entries 11, 17). -/
def Obligations.CommitTakesEffectAtItsPeriod : Prop :=
  ∀ (noticed : State → SlotIdx → Slot), (∀ s i, noticed s i =
      (let r := s.routes[i].active
       let double := s.slots[i].due.protect && !s.available r.primary && r.backup.any fun b => !s.available b
       let select : ListSelect := if !s.available r.primary && r.backup.any s.available then .backup else .primary
       { s.slots[i] with
         protection := ⟨select, false, none, double⟩
         requests := s.slots[i].requests ++
           [⟨match select with
             | .primary => r.primary
             | .backup => r.backup.getD [], r.profile⟩]
         due := { s.slots[i].due with notice := false, protect := false } })) →
  (∀ (s : State) (c : PendingCommit) (replaced : SlotIdx → Bool) (n : Nat), s.timing.atBoundary = true →
    s.pendingCommit = some c → c.effective = s.timing.periodCounter →
    (∀ i : SlotIdx, replaced i = (c.mask.getLsbD (i.val / 16) && s.routes[i].dirty)) →
    n = (List.finRange 64).countP replaced →
    ∃ u t, exec (.boundary (.only .commit)) s = .next u ∧ exec .commitTakesEffect s = .next t ∧
      u = { s with
        routes := Vector.ofFn fun i : SlotIdx =>
          if replaced i then { s.routes[i] with active := s.routes[i].staging, dirty := false } else s.routes[i]
        slots := Vector.ofFn fun i : SlotIdx =>
          if replaced i then { s.slots[i] with due := { s.slots[i].due with notice := true } } else s.slots[i]
        pendingCommit := none
        events := s.events.raise s.timing.periodCounter .commitDone 0 (BitVec.ofNat 16 n) } ∧
      t = { u with
        slots := Vector.ofFn fun i : SlotIdx => if replaced i then noticed u i else s.slots[i]
        events := t.events } ∧
      (s.events.config[EventKind.commitDone.index].enabled = true → s.events.queue.length < 32 →
        ∃ r ∈ t.events.queue, r.kind = .commitDone ∧ r.subject = 0 ∧ r.detail = BitVec.ofNat 16 n ∧
          r.stamp = s.timing.periodCounter)) ∧
  ∀ (s : State) (i : SlotIdx), s.slots[i].due.notice = true → NoCommitDue s →
    exec (.boundary (.only (.protect i))) s = .next
      { s with
        slots := updateAt s.slots i fun _ => noticed s i
        events :=
          let latched := { s.events with latched := s.events.latched ||| BitVec.twoPow 17 13 }
          if (noticed s i).protection.doubleLoss then latched.raise s.timing.periodCounter .doubleLoss i 0#16
          else s.events }

/-- R174, R175: the timeout of a report, before and after its fourth sending. -/
def Obligations.ReportsTimeOutAndStall : Prop :=
  ∀ (s : State) (r : EventRecord) (before after : List EventRecord), s.events.queue = before ++ r :: after →
    (s.events.queue.map (·.sequence)).Nodup → r.state = .outstanding → r.stalled = false → 1024 ≤ r.age →
    (r.sendCount < 4 →
      exec (.reportTimeout r.sequence) s = .next
        { s with events := { s.events with queue := before ++ { r with state := .unsent } :: after } }) ∧
    (4 ≤ r.sendCount →
      exec (.reportTimeout r.sequence) s = .next
        { s with
          events := { s.events with
            queue := before ++ { r with stalled := true } :: after, path := .stalled
            latched := s.events.latched ||| BitVec.twoPow 17 16 } })

/-- R167, R169, R170, R171: what a raised event does to the event unit. -/
def Obligations.RaisedEventsEnterTheQueue : Prop :=
  ∀ (u : EventUnit) (stamp : Word16) (kind : EventKind) (subject : SlotIdx) (detail : Word16),
    (u.config[kind.index].enabled = false → u.raise stamp kind subject detail = u) ∧
    (u.config[kind.index].enabled = true → 32 ≤ u.queue.length →
      u.raise stamp kind subject detail =
        { u with
          loss := if u.loss = 0xFFFF#16 then 0xFFFF#16 else u.loss + 1#16
          latched := u.latched ||| BitVec.twoPow 17 15 }) ∧
    (u.config[kind.index].enabled = true → u.queue.length < 32 →
      ∃ (k : Nat) (before after : List EventRecord), k ≤ u.queue.length ∧ u.queue = before ++ after ∧
        u.sequence + BitVec.ofNat 16 k ∉ u.queue.map (·.sequence) ∧
        (∀ j < k, u.sequence + BitVec.ofNat 16 j ∈ u.queue.map (·.sequence)) ∧
        (∀ x ∈ before, u.config[kind.index].priority ≤ x.priority) ∧
        (u.queue.Pairwise (fun a b => b.priority ≤ a.priority) →
          ∀ x ∈ after, x.priority < u.config[kind.index].priority) ∧
        u.raise stamp kind subject detail =
          { u with
            queue := before ++
              ⟨u.sequence + BitVec.ofNat 16 k, kind, u.config[kind.index].priority, subject, stamp, detail, .unsent, false,
                0, 0, false⟩ :: after
            sequence := u.sequence + BitVec.ofNat 16 k + 1#16 })

/-! ### The laws of the manual, kept by every step -/

/-- The reset state meets every law below. -/
def Obligations.ResetMeetsTheLaws : Prop :=
  StoresSound State.reset ∧ TimingSound State.reset ∧ RoutesSound State.reset ∧ ContextsSound State.reset ∧
    ProtectionSound State.reset ∧ ChannelSound State.reset ∧ EnablesAgree State.reset ∧ ControlEnabled State.reset ∧
    EventsSound State.reset ∧ AlarmsFollow State.reset

/-- R54. -/
def Obligations.StepsKeepStoresSound : Prop :=
  ∀ s t : State, StoresSound s → step s = .next t → StoresSound t

/-- R48, Table 15. -/
def Obligations.StepsKeepTimingSound : Prop :=
  ∀ s t : State, TimingSound s → step s = .next t → TimingSound t

/-- R66, R70. -/
def Obligations.StepsKeepRoutesSound : Prop :=
  ∀ s t : State, RoutesSound s → step s = .next t → RoutesSound t

/-- R96, R100. -/
def Obligations.StepsKeepContextsSound : Prop :=
  ∀ s t : State, ContextsSound s → step s = .next t → ContextsSound t

/-- R114, but for a slot that waits for a commit's notice (log entry 11). -/
def Obligations.StepsKeepProtectionSound : Prop :=
  ∀ s t : State, ProtectionSound s → step s = .next t → ProtectionSound t

/-- R151, R152, R156. -/
def Obligations.StepsKeepChannelSound : Prop :=
  ∀ s t : State, ChannelSound s → step s = .next t → ChannelSound t

/-- R39, R159. -/
def Obligations.StepsKeepTheControlPortEnabled : Prop :=
  ∀ s t : State, EnablesAgree s → ControlEnabled s → step s = .next t → EnablesAgree t ∧ ControlEnabled t

/-- R167, R169, R173. -/
def Obligations.StepsKeepEventsSound : Prop :=
  ∀ s t : State, EventsSound s → step s = .next t → EventsSound t

/-- R179: a condition alarm stays latched for as long as its condition holds. -/
def Obligations.StepsKeepAlarmsLatched : Prop :=
  ∀ s t : State, AlarmsFollow s → step s = .next t → AlarmsFollow t
end

