-- ==== Sys2Proof/Laws/Tables.lean ====
section
/-! SUPPORT. What the table operations of Machine/Ops.lean do to one element, and folding an operation over a table's
indices. -/

namespace Sys2Proof.Machine

/-- Stated for a natural index, the form simp brings an element access to. -/
@[simp] theorem updateAt_getElem {α : Type} {n : Nat} (v : Vector α n) (i : Fin n) (f : α → α) (k : Nat) (hk : k < n) :
    (updateAt v i f)[k] = if i.val = k then f v[k] else v[k] := by
  unfold updateAt
  rw [Vector.getElem_set]
  split
  · next h => subst h; rfl
  · rfl

@[simp] theorem mapTable_getElem {α β : Type} {n : Nat} (v : Vector α n) (f : α → β) (k : Nat) (hk : k < n) :
    (mapTable v f)[k] = f v[k] := by
  simp [mapTable]

theorem updateAt_get_self {α : Type} {n : Nat} (v : Vector α n) (i : Fin n) (f : α → α) :
    (updateAt v i f)[i] = f v[i] := by
  simp

theorem updateAt_get_ne {α : Type} {n : Nat} (v : Vector α n) {i j : Fin n} (f : α → α) (h : i ≠ j) :
    (updateAt v i f)[j] = v[j] := by
  simp [Fin.val_inj, h]

theorem table_ext {α : Type} {n : Nat} {v w : Vector α n} (h : ∀ j : Fin n, v[j] = w[j]) : v = w :=
  Vector.ext fun i hi => h ⟨i, hi⟩

theorem updateAt_congr {α : Type} {n : Nat} (v : Vector α n) (i : Fin n) {f g : α → α} (h : f v[i] = g v[i]) :
    updateAt v i f = updateAt v i g := by
  simp only [updateAt, h]

theorem updateAt_id {α : Type} {n : Nat} (v : Vector α n) (i : Fin n) {f : α → α} (h : f v[i] = v[i]) :
    updateAt v i f = v := by
  apply table_ext
  intro j
  by_cases hj : i = j
  · subst hj; simpa using h
  · simp [Fin.val_inj, hj]

theorem updateAt_updateAt {α : Type} {n : Nat} (v : Vector α n) (i : Fin n) (f g : α → α) :
    updateAt (updateAt v i f) i g = updateAt v i fun x => g (f x) := by
  apply table_ext
  intro j
  by_cases h : i = j
  · subst h; simp
  · simp [Fin.val_inj, h]

/-- What one operation of a fold keeps, the whole fold keeps. -/
theorem foldl_keeps {σ α : Type} {f : σ → α → σ} {P : σ → Prop} (h : ∀ s a, P s → P (f s a)) {l : List α} {s : σ}
    (hs : P s) : P (l.foldl f s) := by
  induction l generalizing s with
  | nil => exact hs
  | cons a l ih => exact ih (h s a hs)

/-- The same for an operation done once for each index. -/
theorem forEach_keeps {σ : Type} {n : Nat} {f : Fin n → σ → σ} {P : σ → Prop} (h : ∀ i s, P s → P (f i s)) {s : σ}
    (hs : P s) : P (forEach n f s) := by
  exact foldl_keeps (fun s i hs => h i s hs) hs

/-- An operation of a fold establishes its own goal, which every other operation of the fold keeps. -/
theorem forEach_reaches {σ : Type} {n : Nat} {f : Fin n → σ → σ} {P : Fin n → σ → Prop} (own : ∀ i s, P i (f i s))
    (other : ∀ i j s, P i s → P i (f j s)) (s : σ) (i : Fin n) : P i (forEach n f s) := by
  have key : ∀ (l : List (Fin n)) (s : σ), (i ∈ l ∨ P i s) → P i (l.foldl (fun s i => f i s) s) := by
    intro l
    induction l with
    | nil => intro s hs; simpa using hs
    | cons j l ih =>
      intro s hs
      apply ih
      rcases hs with hm | hp
      · rcases List.mem_cons.mp hm with rfl | hm
        · exact .inr (own i s)
        · exact .inl hm
      · exact .inr (other i j s hp)
  exact key _ s (.inl (List.mem_finRange i))

end Sys2Proof.Machine
end

