-- ==== Sys2Proof/Laws/State.lean ====
section
/-! SUPPORT. One lemma per field per update of State, so that no proof unfolds a record update. -/

namespace Sys2Proof.Machine.State

variable (s : State)

@[simp] theorem updatePort_ports (p : PortIdx) (f : Port → Port) :
    (s.updatePort p f).ports = updateAt s.ports p f := rfl
@[simp] theorem updatePort_timing (p : PortIdx) (f : Port → Port) : (s.updatePort p f).timing = s.timing := rfl
@[simp] theorem updatePort_routes (p : PortIdx) (f : Port → Port) : (s.updatePort p f).routes = s.routes := rfl
@[simp] theorem updatePort_pendingCommit (p : PortIdx) (f : Port → Port) :
    (s.updatePort p f).pendingCommit = s.pendingCommit := rfl
@[simp] theorem updatePort_profiles (p : PortIdx) (f : Port → Port) : (s.updatePort p f).profiles = s.profiles := rfl
@[simp] theorem updatePort_latching (p : PortIdx) (f : Port → Port) : (s.updatePort p f).latching = s.latching := rfl
@[simp] theorem updatePort_entered (p : PortIdx) (f : Port → Port) : (s.updatePort p f).entered = s.entered := rfl
@[simp] theorem updatePort_slots (p : PortIdx) (f : Port → Port) : (s.updatePort p f).slots = s.slots := rfl
@[simp] theorem updatePort_monitors (p : PortIdx) (f : Port → Port) : (s.updatePort p f).monitors = s.monitors := rfl
@[simp] theorem updatePort_egress (p : PortIdx) (f : Port → Port) : (s.updatePort p f).egress = s.egress := rfl
@[simp] theorem updatePort_channel (p : PortIdx) (f : Port → Port) : (s.updatePort p f).channel = s.channel := rfl
@[simp] theorem updatePort_events (p : PortIdx) (f : Port → Port) : (s.updatePort p f).events = s.events := rfl
@[simp] theorem updatePort_pending (p : PortIdx) (f : Port → Port) : (s.updatePort p f).pending = s.pending := rfl

@[simp] theorem updateTiming_ports (f : TimingUnit → TimingUnit) : (s.updateTiming f).ports = s.ports := rfl
@[simp] theorem updateTiming_timing (f : TimingUnit → TimingUnit) : (s.updateTiming f).timing = f s.timing := rfl
@[simp] theorem updateTiming_routes (f : TimingUnit → TimingUnit) : (s.updateTiming f).routes = s.routes := rfl
@[simp] theorem updateTiming_pendingCommit (f : TimingUnit → TimingUnit) :
    (s.updateTiming f).pendingCommit = s.pendingCommit := rfl
@[simp] theorem updateTiming_profiles (f : TimingUnit → TimingUnit) : (s.updateTiming f).profiles = s.profiles := rfl
@[simp] theorem updateTiming_latching (f : TimingUnit → TimingUnit) : (s.updateTiming f).latching = s.latching := rfl
@[simp] theorem updateTiming_entered (f : TimingUnit → TimingUnit) : (s.updateTiming f).entered = s.entered := rfl
@[simp] theorem updateTiming_slots (f : TimingUnit → TimingUnit) : (s.updateTiming f).slots = s.slots := rfl
@[simp] theorem updateTiming_monitors (f : TimingUnit → TimingUnit) : (s.updateTiming f).monitors = s.monitors := rfl
@[simp] theorem updateTiming_egress (f : TimingUnit → TimingUnit) : (s.updateTiming f).egress = s.egress := rfl
@[simp] theorem updateTiming_channel (f : TimingUnit → TimingUnit) : (s.updateTiming f).channel = s.channel := rfl
@[simp] theorem updateTiming_events (f : TimingUnit → TimingUnit) : (s.updateTiming f).events = s.events := rfl
@[simp] theorem updateTiming_pending (f : TimingUnit → TimingUnit) : (s.updateTiming f).pending = s.pending := rfl

@[simp] theorem updateRoute_ports (i : SlotIdx) (f : RouteEntry → RouteEntry) :
    (s.updateRoute i f).ports = s.ports := rfl
@[simp] theorem updateRoute_timing (i : SlotIdx) (f : RouteEntry → RouteEntry) :
    (s.updateRoute i f).timing = s.timing := rfl
@[simp] theorem updateRoute_routes (i : SlotIdx) (f : RouteEntry → RouteEntry) :
    (s.updateRoute i f).routes = updateAt s.routes i f := rfl
@[simp] theorem updateRoute_pendingCommit (i : SlotIdx) (f : RouteEntry → RouteEntry) :
    (s.updateRoute i f).pendingCommit = s.pendingCommit := rfl
@[simp] theorem updateRoute_profiles (i : SlotIdx) (f : RouteEntry → RouteEntry) :
    (s.updateRoute i f).profiles = s.profiles := rfl
@[simp] theorem updateRoute_latching (i : SlotIdx) (f : RouteEntry → RouteEntry) :
    (s.updateRoute i f).latching = s.latching := rfl
@[simp] theorem updateRoute_entered (i : SlotIdx) (f : RouteEntry → RouteEntry) :
    (s.updateRoute i f).entered = s.entered := rfl
@[simp] theorem updateRoute_slots (i : SlotIdx) (f : RouteEntry → RouteEntry) :
    (s.updateRoute i f).slots = s.slots := rfl
@[simp] theorem updateRoute_monitors (i : SlotIdx) (f : RouteEntry → RouteEntry) :
    (s.updateRoute i f).monitors = s.monitors := rfl
@[simp] theorem updateRoute_egress (i : SlotIdx) (f : RouteEntry → RouteEntry) :
    (s.updateRoute i f).egress = s.egress := rfl
@[simp] theorem updateRoute_channel (i : SlotIdx) (f : RouteEntry → RouteEntry) :
    (s.updateRoute i f).channel = s.channel := rfl
@[simp] theorem updateRoute_events (i : SlotIdx) (f : RouteEntry → RouteEntry) :
    (s.updateRoute i f).events = s.events := rfl
@[simp] theorem updateRoute_pending (i : SlotIdx) (f : RouteEntry → RouteEntry) :
    (s.updateRoute i f).pending = s.pending := rfl

@[simp] theorem setPendingCommit_ports (c : Option PendingCommit) : (s.setPendingCommit c).ports = s.ports := rfl
@[simp] theorem setPendingCommit_timing (c : Option PendingCommit) : (s.setPendingCommit c).timing = s.timing := rfl
@[simp] theorem setPendingCommit_routes (c : Option PendingCommit) : (s.setPendingCommit c).routes = s.routes := rfl
@[simp] theorem setPendingCommit_pendingCommit (c : Option PendingCommit) :
    (s.setPendingCommit c).pendingCommit = c := rfl
@[simp] theorem setPendingCommit_profiles (c : Option PendingCommit) :
    (s.setPendingCommit c).profiles = s.profiles := rfl
@[simp] theorem setPendingCommit_latching (c : Option PendingCommit) :
    (s.setPendingCommit c).latching = s.latching := rfl
@[simp] theorem setPendingCommit_entered (c : Option PendingCommit) :
    (s.setPendingCommit c).entered = s.entered := rfl
@[simp] theorem setPendingCommit_slots (c : Option PendingCommit) : (s.setPendingCommit c).slots = s.slots := rfl
@[simp] theorem setPendingCommit_monitors (c : Option PendingCommit) :
    (s.setPendingCommit c).monitors = s.monitors := rfl
@[simp] theorem setPendingCommit_egress (c : Option PendingCommit) : (s.setPendingCommit c).egress = s.egress := rfl
@[simp] theorem setPendingCommit_channel (c : Option PendingCommit) :
    (s.setPendingCommit c).channel = s.channel := rfl
@[simp] theorem setPendingCommit_events (c : Option PendingCommit) : (s.setPendingCommit c).events = s.events := rfl
@[simp] theorem setPendingCommit_pending (c : Option PendingCommit) :
    (s.setPendingCommit c).pending = s.pending := rfl

@[simp] theorem setProfile_ports (i : Fin 8) (p : Profile) : (s.setProfile i p).ports = s.ports := rfl
@[simp] theorem setProfile_timing (i : Fin 8) (p : Profile) : (s.setProfile i p).timing = s.timing := rfl
@[simp] theorem setProfile_routes (i : Fin 8) (p : Profile) : (s.setProfile i p).routes = s.routes := rfl
@[simp] theorem setProfile_pendingCommit (i : Fin 8) (p : Profile) :
    (s.setProfile i p).pendingCommit = s.pendingCommit := rfl
@[simp] theorem setProfile_profiles (i : Fin 8) (p : Profile) :
    (s.setProfile i p).profiles = updateAt s.profiles i fun _ => p := rfl
@[simp] theorem setProfile_latching (i : Fin 8) (p : Profile) : (s.setProfile i p).latching = s.latching := rfl
@[simp] theorem setProfile_entered (i : Fin 8) (p : Profile) : (s.setProfile i p).entered = s.entered := rfl
@[simp] theorem setProfile_slots (i : Fin 8) (p : Profile) : (s.setProfile i p).slots = s.slots := rfl
@[simp] theorem setProfile_monitors (i : Fin 8) (p : Profile) : (s.setProfile i p).monitors = s.monitors := rfl
@[simp] theorem setProfile_egress (i : Fin 8) (p : Profile) : (s.setProfile i p).egress = s.egress := rfl
@[simp] theorem setProfile_channel (i : Fin 8) (p : Profile) : (s.setProfile i p).channel = s.channel := rfl
@[simp] theorem setProfile_events (i : Fin 8) (p : Profile) : (s.setProfile i p).events = s.events := rfl
@[simp] theorem setProfile_pending (i : Fin 8) (p : Profile) : (s.setProfile i p).pending = s.pending := rfl

@[simp] theorem setLatching_ports (i : Fin 8) (p : Profile) : (s.setLatching i p).ports = s.ports := rfl
@[simp] theorem setLatching_timing (i : Fin 8) (p : Profile) : (s.setLatching i p).timing = s.timing := rfl
@[simp] theorem setLatching_routes (i : Fin 8) (p : Profile) : (s.setLatching i p).routes = s.routes := rfl
@[simp] theorem setLatching_pendingCommit (i : Fin 8) (p : Profile) :
    (s.setLatching i p).pendingCommit = s.pendingCommit := rfl
@[simp] theorem setLatching_profiles (i : Fin 8) (p : Profile) : (s.setLatching i p).profiles = s.profiles := rfl
@[simp] theorem setLatching_latching (i : Fin 8) (p : Profile) :
    (s.setLatching i p).latching = updateAt s.latching i fun _ => p := rfl
@[simp] theorem setLatching_entered (i : Fin 8) (p : Profile) : (s.setLatching i p).entered = s.entered := rfl
@[simp] theorem setLatching_slots (i : Fin 8) (p : Profile) : (s.setLatching i p).slots = s.slots := rfl
@[simp] theorem setLatching_monitors (i : Fin 8) (p : Profile) : (s.setLatching i p).monitors = s.monitors := rfl
@[simp] theorem setLatching_egress (i : Fin 8) (p : Profile) : (s.setLatching i p).egress = s.egress := rfl
@[simp] theorem setLatching_channel (i : Fin 8) (p : Profile) : (s.setLatching i p).channel = s.channel := rfl
@[simp] theorem setLatching_events (i : Fin 8) (p : Profile) : (s.setLatching i p).events = s.events := rfl
@[simp] theorem setLatching_pending (i : Fin 8) (p : Profile) : (s.setLatching i p).pending = s.pending := rfl

@[simp] theorem markEntered_ports (i : Fin 8) (b : Bool) : (s.markEntered i b).ports = s.ports := rfl
@[simp] theorem markEntered_timing (i : Fin 8) (b : Bool) : (s.markEntered i b).timing = s.timing := rfl
@[simp] theorem markEntered_routes (i : Fin 8) (b : Bool) : (s.markEntered i b).routes = s.routes := rfl
@[simp] theorem markEntered_pendingCommit (i : Fin 8) (b : Bool) :
    (s.markEntered i b).pendingCommit = s.pendingCommit := rfl
@[simp] theorem markEntered_profiles (i : Fin 8) (b : Bool) : (s.markEntered i b).profiles = s.profiles := rfl
@[simp] theorem markEntered_latching (i : Fin 8) (b : Bool) : (s.markEntered i b).latching = s.latching := rfl
@[simp] theorem markEntered_entered (i : Fin 8) (b : Bool) :
    (s.markEntered i b).entered = updateAt s.entered i fun x => x || b := rfl
@[simp] theorem markEntered_slots (i : Fin 8) (b : Bool) : (s.markEntered i b).slots = s.slots := rfl
@[simp] theorem markEntered_monitors (i : Fin 8) (b : Bool) : (s.markEntered i b).monitors = s.monitors := rfl
@[simp] theorem markEntered_egress (i : Fin 8) (b : Bool) : (s.markEntered i b).egress = s.egress := rfl
@[simp] theorem markEntered_channel (i : Fin 8) (b : Bool) : (s.markEntered i b).channel = s.channel := rfl
@[simp] theorem markEntered_events (i : Fin 8) (b : Bool) : (s.markEntered i b).events = s.events := rfl
@[simp] theorem markEntered_pending (i : Fin 8) (b : Bool) : (s.markEntered i b).pending = s.pending := rfl

@[simp] theorem updateSlot_ports (i : SlotIdx) (f : Slot → Slot) : (s.updateSlot i f).ports = s.ports := rfl
@[simp] theorem updateSlot_timing (i : SlotIdx) (f : Slot → Slot) : (s.updateSlot i f).timing = s.timing := rfl
@[simp] theorem updateSlot_routes (i : SlotIdx) (f : Slot → Slot) : (s.updateSlot i f).routes = s.routes := rfl
@[simp] theorem updateSlot_pendingCommit (i : SlotIdx) (f : Slot → Slot) :
    (s.updateSlot i f).pendingCommit = s.pendingCommit := rfl
@[simp] theorem updateSlot_profiles (i : SlotIdx) (f : Slot → Slot) : (s.updateSlot i f).profiles = s.profiles := rfl
@[simp] theorem updateSlot_latching (i : SlotIdx) (f : Slot → Slot) : (s.updateSlot i f).latching = s.latching := rfl
@[simp] theorem updateSlot_entered (i : SlotIdx) (f : Slot → Slot) : (s.updateSlot i f).entered = s.entered := rfl
@[simp] theorem updateSlot_slots (i : SlotIdx) (f : Slot → Slot) :
    (s.updateSlot i f).slots = updateAt s.slots i f := rfl
@[simp] theorem updateSlot_monitors (i : SlotIdx) (f : Slot → Slot) : (s.updateSlot i f).monitors = s.monitors := rfl
@[simp] theorem updateSlot_egress (i : SlotIdx) (f : Slot → Slot) : (s.updateSlot i f).egress = s.egress := rfl
@[simp] theorem updateSlot_channel (i : SlotIdx) (f : Slot → Slot) : (s.updateSlot i f).channel = s.channel := rfl
@[simp] theorem updateSlot_events (i : SlotIdx) (f : Slot → Slot) : (s.updateSlot i f).events = s.events := rfl
@[simp] theorem updateSlot_pending (i : SlotIdx) (f : Slot → Slot) : (s.updateSlot i f).pending = s.pending := rfl

@[simp] theorem updateMonitor_ports (m : Fin 4) (f : Monitor → Monitor) : (s.updateMonitor m f).ports = s.ports := rfl
@[simp] theorem updateMonitor_timing (m : Fin 4) (f : Monitor → Monitor) :
    (s.updateMonitor m f).timing = s.timing := rfl
@[simp] theorem updateMonitor_routes (m : Fin 4) (f : Monitor → Monitor) :
    (s.updateMonitor m f).routes = s.routes := rfl
@[simp] theorem updateMonitor_pendingCommit (m : Fin 4) (f : Monitor → Monitor) :
    (s.updateMonitor m f).pendingCommit = s.pendingCommit := rfl
@[simp] theorem updateMonitor_profiles (m : Fin 4) (f : Monitor → Monitor) :
    (s.updateMonitor m f).profiles = s.profiles := rfl
@[simp] theorem updateMonitor_latching (m : Fin 4) (f : Monitor → Monitor) :
    (s.updateMonitor m f).latching = s.latching := rfl
@[simp] theorem updateMonitor_entered (m : Fin 4) (f : Monitor → Monitor) :
    (s.updateMonitor m f).entered = s.entered := rfl
@[simp] theorem updateMonitor_slots (m : Fin 4) (f : Monitor → Monitor) : (s.updateMonitor m f).slots = s.slots := rfl
@[simp] theorem updateMonitor_monitors (m : Fin 4) (f : Monitor → Monitor) :
    (s.updateMonitor m f).monitors = updateAt s.monitors m f := rfl
@[simp] theorem updateMonitor_egress (m : Fin 4) (f : Monitor → Monitor) :
    (s.updateMonitor m f).egress = s.egress := rfl
@[simp] theorem updateMonitor_channel (m : Fin 4) (f : Monitor → Monitor) :
    (s.updateMonitor m f).channel = s.channel := rfl
@[simp] theorem updateMonitor_events (m : Fin 4) (f : Monitor → Monitor) :
    (s.updateMonitor m f).events = s.events := rfl
@[simp] theorem updateMonitor_pending (m : Fin 4) (f : Monitor → Monitor) :
    (s.updateMonitor m f).pending = s.pending := rfl

@[simp] theorem updateEgress_ports (e : PortIdx) (f : Egress → Egress) : (s.updateEgress e f).ports = s.ports := rfl
@[simp] theorem updateEgress_timing (e : PortIdx) (f : Egress → Egress) :
    (s.updateEgress e f).timing = s.timing := rfl
@[simp] theorem updateEgress_routes (e : PortIdx) (f : Egress → Egress) :
    (s.updateEgress e f).routes = s.routes := rfl
@[simp] theorem updateEgress_pendingCommit (e : PortIdx) (f : Egress → Egress) :
    (s.updateEgress e f).pendingCommit = s.pendingCommit := rfl
@[simp] theorem updateEgress_profiles (e : PortIdx) (f : Egress → Egress) :
    (s.updateEgress e f).profiles = s.profiles := rfl
@[simp] theorem updateEgress_latching (e : PortIdx) (f : Egress → Egress) :
    (s.updateEgress e f).latching = s.latching := rfl
@[simp] theorem updateEgress_entered (e : PortIdx) (f : Egress → Egress) :
    (s.updateEgress e f).entered = s.entered := rfl
@[simp] theorem updateEgress_slots (e : PortIdx) (f : Egress → Egress) : (s.updateEgress e f).slots = s.slots := rfl
@[simp] theorem updateEgress_monitors (e : PortIdx) (f : Egress → Egress) :
    (s.updateEgress e f).monitors = s.monitors := rfl
@[simp] theorem updateEgress_egress (e : PortIdx) (f : Egress → Egress) :
    (s.updateEgress e f).egress = updateAt s.egress e f := rfl
@[simp] theorem updateEgress_channel (e : PortIdx) (f : Egress → Egress) :
    (s.updateEgress e f).channel = s.channel := rfl
@[simp] theorem updateEgress_events (e : PortIdx) (f : Egress → Egress) :
    (s.updateEgress e f).events = s.events := rfl
@[simp] theorem updateEgress_pending (e : PortIdx) (f : Egress → Egress) :
    (s.updateEgress e f).pending = s.pending := rfl

@[simp] theorem updateChannel_ports (f : Channel → Channel) : (s.updateChannel f).ports = s.ports := rfl
@[simp] theorem updateChannel_timing (f : Channel → Channel) : (s.updateChannel f).timing = s.timing := rfl
@[simp] theorem updateChannel_routes (f : Channel → Channel) : (s.updateChannel f).routes = s.routes := rfl
@[simp] theorem updateChannel_pendingCommit (f : Channel → Channel) :
    (s.updateChannel f).pendingCommit = s.pendingCommit := rfl
@[simp] theorem updateChannel_profiles (f : Channel → Channel) : (s.updateChannel f).profiles = s.profiles := rfl
@[simp] theorem updateChannel_latching (f : Channel → Channel) : (s.updateChannel f).latching = s.latching := rfl
@[simp] theorem updateChannel_entered (f : Channel → Channel) : (s.updateChannel f).entered = s.entered := rfl
@[simp] theorem updateChannel_slots (f : Channel → Channel) : (s.updateChannel f).slots = s.slots := rfl
@[simp] theorem updateChannel_monitors (f : Channel → Channel) : (s.updateChannel f).monitors = s.monitors := rfl
@[simp] theorem updateChannel_egress (f : Channel → Channel) : (s.updateChannel f).egress = s.egress := rfl
@[simp] theorem updateChannel_channel (f : Channel → Channel) : (s.updateChannel f).channel = f s.channel := rfl
@[simp] theorem updateChannel_events (f : Channel → Channel) : (s.updateChannel f).events = s.events := rfl
@[simp] theorem updateChannel_pending (f : Channel → Channel) : (s.updateChannel f).pending = s.pending := rfl

@[simp] theorem updateEvents_ports (f : EventUnit → EventUnit) : (s.updateEvents f).ports = s.ports := rfl
@[simp] theorem updateEvents_timing (f : EventUnit → EventUnit) : (s.updateEvents f).timing = s.timing := rfl
@[simp] theorem updateEvents_routes (f : EventUnit → EventUnit) : (s.updateEvents f).routes = s.routes := rfl
@[simp] theorem updateEvents_pendingCommit (f : EventUnit → EventUnit) :
    (s.updateEvents f).pendingCommit = s.pendingCommit := rfl
@[simp] theorem updateEvents_profiles (f : EventUnit → EventUnit) : (s.updateEvents f).profiles = s.profiles := rfl
@[simp] theorem updateEvents_latching (f : EventUnit → EventUnit) : (s.updateEvents f).latching = s.latching := rfl
@[simp] theorem updateEvents_entered (f : EventUnit → EventUnit) : (s.updateEvents f).entered = s.entered := rfl
@[simp] theorem updateEvents_slots (f : EventUnit → EventUnit) : (s.updateEvents f).slots = s.slots := rfl
@[simp] theorem updateEvents_monitors (f : EventUnit → EventUnit) : (s.updateEvents f).monitors = s.monitors := rfl
@[simp] theorem updateEvents_egress (f : EventUnit → EventUnit) : (s.updateEvents f).egress = s.egress := rfl
@[simp] theorem updateEvents_channel (f : EventUnit → EventUnit) : (s.updateEvents f).channel = s.channel := rfl
@[simp] theorem updateEvents_events (f : EventUnit → EventUnit) : (s.updateEvents f).events = f s.events := rfl
@[simp] theorem updateEvents_pending (f : EventUnit → EventUnit) : (s.updateEvents f).pending = s.pending := rfl

@[simp] theorem raise_ports (k : EventKind) (x : SlotIdx) (d : Word16) : (s.raise k x d).ports = s.ports := rfl
@[simp] theorem raise_timing (k : EventKind) (x : SlotIdx) (d : Word16) : (s.raise k x d).timing = s.timing := rfl
@[simp] theorem raise_routes (k : EventKind) (x : SlotIdx) (d : Word16) : (s.raise k x d).routes = s.routes := rfl
@[simp] theorem raise_pendingCommit (k : EventKind) (x : SlotIdx) (d : Word16) :
    (s.raise k x d).pendingCommit = s.pendingCommit := rfl
@[simp] theorem raise_profiles (k : EventKind) (x : SlotIdx) (d : Word16) :
    (s.raise k x d).profiles = s.profiles := rfl
@[simp] theorem raise_latching (k : EventKind) (x : SlotIdx) (d : Word16) :
    (s.raise k x d).latching = s.latching := rfl
@[simp] theorem raise_entered (k : EventKind) (x : SlotIdx) (d : Word16) : (s.raise k x d).entered = s.entered := rfl
@[simp] theorem raise_slots (k : EventKind) (x : SlotIdx) (d : Word16) : (s.raise k x d).slots = s.slots := rfl
@[simp] theorem raise_monitors (k : EventKind) (x : SlotIdx) (d : Word16) :
    (s.raise k x d).monitors = s.monitors := rfl
@[simp] theorem raise_egress (k : EventKind) (x : SlotIdx) (d : Word16) : (s.raise k x d).egress = s.egress := rfl
@[simp] theorem raise_channel (k : EventKind) (x : SlotIdx) (d : Word16) : (s.raise k x d).channel = s.channel := rfl
@[simp] theorem raise_events (k : EventKind) (x : SlotIdx) (d : Word16) :
    (s.raise k x d).events = EventUnit.raise s.timing.periodCounter k x d s.events := rfl
@[simp] theorem raise_pending (k : EventKind) (x : SlotIdx) (d : Word16) : (s.raise k x d).pending = s.pending := rfl

@[simp] theorem latch_ports (n : Fin 17) : (s.latch n).ports = s.ports := rfl
@[simp] theorem latch_timing (n : Fin 17) : (s.latch n).timing = s.timing := rfl
@[simp] theorem latch_routes (n : Fin 17) : (s.latch n).routes = s.routes := rfl
@[simp] theorem latch_pendingCommit (n : Fin 17) : (s.latch n).pendingCommit = s.pendingCommit := rfl
@[simp] theorem latch_profiles (n : Fin 17) : (s.latch n).profiles = s.profiles := rfl
@[simp] theorem latch_latching (n : Fin 17) : (s.latch n).latching = s.latching := rfl
@[simp] theorem latch_entered (n : Fin 17) : (s.latch n).entered = s.entered := rfl
@[simp] theorem latch_slots (n : Fin 17) : (s.latch n).slots = s.slots := rfl
@[simp] theorem latch_monitors (n : Fin 17) : (s.latch n).monitors = s.monitors := rfl
@[simp] theorem latch_egress (n : Fin 17) : (s.latch n).egress = s.egress := rfl
@[simp] theorem latch_channel (n : Fin 17) : (s.latch n).channel = s.channel := rfl
@[simp] theorem latch_events (n : Fin 17) : (s.latch n).events = EventUnit.latch n s.events := rfl
@[simp] theorem latch_pending (n : Fin 17) : (s.latch n).pending = s.pending := rfl

@[simp] theorem updateContext_ports (i : SlotIdx) (f : SlotContext → SlotContext) :
    (s.updateContext i f).ports = s.ports := rfl
@[simp] theorem updateContext_timing (i : SlotIdx) (f : SlotContext → SlotContext) :
    (s.updateContext i f).timing = s.timing := rfl
@[simp] theorem updateContext_routes (i : SlotIdx) (f : SlotContext → SlotContext) :
    (s.updateContext i f).routes = s.routes := rfl
@[simp] theorem updateContext_pendingCommit (i : SlotIdx) (f : SlotContext → SlotContext) :
    (s.updateContext i f).pendingCommit = s.pendingCommit := rfl
@[simp] theorem updateContext_profiles (i : SlotIdx) (f : SlotContext → SlotContext) :
    (s.updateContext i f).profiles = s.profiles := rfl
@[simp] theorem updateContext_latching (i : SlotIdx) (f : SlotContext → SlotContext) :
    (s.updateContext i f).latching = s.latching := rfl
@[simp] theorem updateContext_entered (i : SlotIdx) (f : SlotContext → SlotContext) :
    (s.updateContext i f).entered = s.entered := rfl
@[simp] theorem updateContext_slots (i : SlotIdx) (f : SlotContext → SlotContext) :
    (s.updateContext i f).slots = updateAt s.slots i fun x => { x with context := f x.context } := rfl
@[simp] theorem updateContext_monitors (i : SlotIdx) (f : SlotContext → SlotContext) :
    (s.updateContext i f).monitors = s.monitors := rfl
@[simp] theorem updateContext_egress (i : SlotIdx) (f : SlotContext → SlotContext) :
    (s.updateContext i f).egress = s.egress := rfl
@[simp] theorem updateContext_channel (i : SlotIdx) (f : SlotContext → SlotContext) :
    (s.updateContext i f).channel = s.channel := rfl
@[simp] theorem updateContext_events (i : SlotIdx) (f : SlotContext → SlotContext) :
    (s.updateContext i f).events = s.events := rfl
@[simp] theorem updateContext_pending (i : SlotIdx) (f : SlotContext → SlotContext) :
    (s.updateContext i f).pending = s.pending := rfl

@[simp] theorem updateDue_ports (i : SlotIdx) (f : SlotDue → SlotDue) : (s.updateDue i f).ports = s.ports := rfl
@[simp] theorem updateDue_timing (i : SlotIdx) (f : SlotDue → SlotDue) : (s.updateDue i f).timing = s.timing := rfl
@[simp] theorem updateDue_routes (i : SlotIdx) (f : SlotDue → SlotDue) : (s.updateDue i f).routes = s.routes := rfl
@[simp] theorem updateDue_pendingCommit (i : SlotIdx) (f : SlotDue → SlotDue) :
    (s.updateDue i f).pendingCommit = s.pendingCommit := rfl
@[simp] theorem updateDue_profiles (i : SlotIdx) (f : SlotDue → SlotDue) :
    (s.updateDue i f).profiles = s.profiles := rfl
@[simp] theorem updateDue_latching (i : SlotIdx) (f : SlotDue → SlotDue) :
    (s.updateDue i f).latching = s.latching := rfl
@[simp] theorem updateDue_entered (i : SlotIdx) (f : SlotDue → SlotDue) : (s.updateDue i f).entered = s.entered := rfl
@[simp] theorem updateDue_slots (i : SlotIdx) (f : SlotDue → SlotDue) :
    (s.updateDue i f).slots = updateAt s.slots i fun x => { x with due := f x.due } := rfl
@[simp] theorem updateDue_monitors (i : SlotIdx) (f : SlotDue → SlotDue) :
    (s.updateDue i f).monitors = s.monitors := rfl
@[simp] theorem updateDue_egress (i : SlotIdx) (f : SlotDue → SlotDue) : (s.updateDue i f).egress = s.egress := rfl
@[simp] theorem updateDue_channel (i : SlotIdx) (f : SlotDue → SlotDue) : (s.updateDue i f).channel = s.channel := rfl
@[simp] theorem updateDue_events (i : SlotIdx) (f : SlotDue → SlotDue) : (s.updateDue i f).events = s.events := rfl
@[simp] theorem updateDue_pending (i : SlotIdx) (f : SlotDue → SlotDue) : (s.updateDue i f).pending = s.pending := rfl

@[simp] theorem updateProtection_ports (i : SlotIdx) (f : Protection → Protection) :
    (s.updateProtection i f).ports = s.ports := rfl
@[simp] theorem updateProtection_timing (i : SlotIdx) (f : Protection → Protection) :
    (s.updateProtection i f).timing = s.timing := rfl
@[simp] theorem updateProtection_routes (i : SlotIdx) (f : Protection → Protection) :
    (s.updateProtection i f).routes = s.routes := rfl
@[simp] theorem updateProtection_pendingCommit (i : SlotIdx) (f : Protection → Protection) :
    (s.updateProtection i f).pendingCommit = s.pendingCommit := rfl
@[simp] theorem updateProtection_profiles (i : SlotIdx) (f : Protection → Protection) :
    (s.updateProtection i f).profiles = s.profiles := rfl
@[simp] theorem updateProtection_latching (i : SlotIdx) (f : Protection → Protection) :
    (s.updateProtection i f).latching = s.latching := rfl
@[simp] theorem updateProtection_entered (i : SlotIdx) (f : Protection → Protection) :
    (s.updateProtection i f).entered = s.entered := rfl
@[simp] theorem updateProtection_slots (i : SlotIdx) (f : Protection → Protection) :
    (s.updateProtection i f).slots = updateAt s.slots i fun x => { x with protection := f x.protection } := rfl
@[simp] theorem updateProtection_monitors (i : SlotIdx) (f : Protection → Protection) :
    (s.updateProtection i f).monitors = s.monitors := rfl
@[simp] theorem updateProtection_egress (i : SlotIdx) (f : Protection → Protection) :
    (s.updateProtection i f).egress = s.egress := rfl
@[simp] theorem updateProtection_channel (i : SlotIdx) (f : Protection → Protection) :
    (s.updateProtection i f).channel = s.channel := rfl
@[simp] theorem updateProtection_events (i : SlotIdx) (f : Protection → Protection) :
    (s.updateProtection i f).events = s.events := rfl
@[simp] theorem updateProtection_pending (i : SlotIdx) (f : Protection → Protection) :
    (s.updateProtection i f).pending = s.pending := rfl

@[simp] theorem updateFramer_ports (p : PortIdx) (f : Framer → Framer) :
    (s.updateFramer p f).ports = updateAt s.ports p fun x => { x with framer := f x.framer } := rfl
@[simp] theorem updateFramer_timing (p : PortIdx) (f : Framer → Framer) :
    (s.updateFramer p f).timing = s.timing := rfl
@[simp] theorem updateFramer_routes (p : PortIdx) (f : Framer → Framer) :
    (s.updateFramer p f).routes = s.routes := rfl
@[simp] theorem updateFramer_pendingCommit (p : PortIdx) (f : Framer → Framer) :
    (s.updateFramer p f).pendingCommit = s.pendingCommit := rfl
@[simp] theorem updateFramer_profiles (p : PortIdx) (f : Framer → Framer) :
    (s.updateFramer p f).profiles = s.profiles := rfl
@[simp] theorem updateFramer_latching (p : PortIdx) (f : Framer → Framer) :
    (s.updateFramer p f).latching = s.latching := rfl
@[simp] theorem updateFramer_entered (p : PortIdx) (f : Framer → Framer) :
    (s.updateFramer p f).entered = s.entered := rfl
@[simp] theorem updateFramer_slots (p : PortIdx) (f : Framer → Framer) : (s.updateFramer p f).slots = s.slots := rfl
@[simp] theorem updateFramer_monitors (p : PortIdx) (f : Framer → Framer) :
    (s.updateFramer p f).monitors = s.monitors := rfl
@[simp] theorem updateFramer_egress (p : PortIdx) (f : Framer → Framer) :
    (s.updateFramer p f).egress = s.egress := rfl
@[simp] theorem updateFramer_channel (p : PortIdx) (f : Framer → Framer) :
    (s.updateFramer p f).channel = s.channel := rfl
@[simp] theorem updateFramer_events (p : PortIdx) (f : Framer → Framer) :
    (s.updateFramer p f).events = s.events := rfl
@[simp] theorem updateFramer_pending (p : PortIdx) (f : Framer → Framer) :
    (s.updateFramer p f).pending = s.pending := rfl

@[simp] theorem countPort_ports (p : PortIdx) (f : PortCounters → PortCounters) :
    (s.countPort p f).ports = updateAt s.ports p fun x => { x with counters := f x.counters } := rfl
@[simp] theorem countPort_timing (p : PortIdx) (f : PortCounters → PortCounters) :
    (s.countPort p f).timing = s.timing := rfl
@[simp] theorem countPort_routes (p : PortIdx) (f : PortCounters → PortCounters) :
    (s.countPort p f).routes = s.routes := rfl
@[simp] theorem countPort_pendingCommit (p : PortIdx) (f : PortCounters → PortCounters) :
    (s.countPort p f).pendingCommit = s.pendingCommit := rfl
@[simp] theorem countPort_profiles (p : PortIdx) (f : PortCounters → PortCounters) :
    (s.countPort p f).profiles = s.profiles := rfl
@[simp] theorem countPort_latching (p : PortIdx) (f : PortCounters → PortCounters) :
    (s.countPort p f).latching = s.latching := rfl
@[simp] theorem countPort_entered (p : PortIdx) (f : PortCounters → PortCounters) :
    (s.countPort p f).entered = s.entered := rfl
@[simp] theorem countPort_slots (p : PortIdx) (f : PortCounters → PortCounters) :
    (s.countPort p f).slots = s.slots := rfl
@[simp] theorem countPort_monitors (p : PortIdx) (f : PortCounters → PortCounters) :
    (s.countPort p f).monitors = s.monitors := rfl
@[simp] theorem countPort_egress (p : PortIdx) (f : PortCounters → PortCounters) :
    (s.countPort p f).egress = s.egress := rfl
@[simp] theorem countPort_channel (p : PortIdx) (f : PortCounters → PortCounters) :
    (s.countPort p f).channel = s.channel := rfl
@[simp] theorem countPort_events (p : PortIdx) (f : PortCounters → PortCounters) :
    (s.countPort p f).events = s.events := rfl
@[simp] theorem countPort_pending (p : PortIdx) (f : PortCounters → PortCounters) :
    (s.countPort p f).pending = s.pending := rfl

@[simp] theorem setReassembly_ports (p : PortIdx) (b : Option PartialMessage) :
    (s.setReassembly p b).ports = updateAt s.ports p fun x => { x with reassembly := b } := rfl
@[simp] theorem setReassembly_timing (p : PortIdx) (b : Option PartialMessage) :
    (s.setReassembly p b).timing = s.timing := rfl
@[simp] theorem setReassembly_routes (p : PortIdx) (b : Option PartialMessage) :
    (s.setReassembly p b).routes = s.routes := rfl
@[simp] theorem setReassembly_pendingCommit (p : PortIdx) (b : Option PartialMessage) :
    (s.setReassembly p b).pendingCommit = s.pendingCommit := rfl
@[simp] theorem setReassembly_profiles (p : PortIdx) (b : Option PartialMessage) :
    (s.setReassembly p b).profiles = s.profiles := rfl
@[simp] theorem setReassembly_latching (p : PortIdx) (b : Option PartialMessage) :
    (s.setReassembly p b).latching = s.latching := rfl
@[simp] theorem setReassembly_entered (p : PortIdx) (b : Option PartialMessage) :
    (s.setReassembly p b).entered = s.entered := rfl
@[simp] theorem setReassembly_slots (p : PortIdx) (b : Option PartialMessage) :
    (s.setReassembly p b).slots = s.slots := rfl
@[simp] theorem setReassembly_monitors (p : PortIdx) (b : Option PartialMessage) :
    (s.setReassembly p b).monitors = s.monitors := rfl
@[simp] theorem setReassembly_egress (p : PortIdx) (b : Option PartialMessage) :
    (s.setReassembly p b).egress = s.egress := rfl
@[simp] theorem setReassembly_channel (p : PortIdx) (b : Option PartialMessage) :
    (s.setReassembly p b).channel = s.channel := rfl
@[simp] theorem setReassembly_events (p : PortIdx) (b : Option PartialMessage) :
    (s.setReassembly p b).events = s.events := rfl
@[simp] theorem setReassembly_pending (p : PortIdx) (b : Option PartialMessage) :
    (s.setReassembly p b).pending = s.pending := rfl

end Sys2Proof.Machine.State
end

