-- ==== Sys2Proof/Laws/Commands.lean ====
section
/-! SUPPORT. What the arbiter, the check of authority and the placing of a response do. -/

namespace Sys2Proof.Machine

theorem takeRoomy_some {room : Message → Bool} {older newer : List Message} {m : Message}
    (held : ∀ x ∈ older, room x = false) (hm : room m = true) :
    takeRoomy room (older ++ m :: newer) = some (m, older ++ newer) := by
  induction older with
  | nil => simp [takeRoomy, hm]
  | cons x rest ih =>
    have hx : room x = false := held x (by simp)
    have := ih fun y hy => held y (by simp [hy])
    simp [takeRoomy, hx, this]

/-- The arbiter's choice, read back: everything older is held back. -/
theorem takeRoomy_inv {room : Message → Bool} {q rest : List Message} {m : Message}
    (h : takeRoomy room q = some (m, rest)) :
    ∃ older newer, q = older ++ m :: newer ∧ rest = older ++ newer ∧ room m = true ∧ ∀ x ∈ older, room x = false := by
  induction q generalizing rest with
  | nil => simp [takeRoomy] at h
  | cons x xs ih =>
    unfold takeRoomy at h
    split at h
    · next hx =>
      obtain ⟨rfl, rfl⟩ : x = m ∧ xs = rest := by simpa using h
      exact ⟨[], xs, rfl, rfl, hx, by simp⟩
    · next hx =>
      split at h
      · next y others hy =>
        obtain ⟨rfl, rfl⟩ : y = m ∧ x :: others = rest := by simpa using h
        obtain ⟨older, newer, rfl, rfl, hm, hold⟩ := ih hy
        exact ⟨x :: older, newer, rfl, rfl, hm, by simpa [hx] using hold⟩
      · cases h

theorem Egress.hasRoom_iff (e : Egress) : e.hasRoom = true ↔ e.responses.length < 4 := by
  exact decide_eq_true_iff

theorem Turn.taken_eq {s : State} {older newer : List Message} {m : Message} (h : Turn s older m newer) :
    s.takeCommand m = some (s.taken older newer) := by
  have hq : s.arbiter = some (m, older ++ newer) := by
    unfold State.arbiter
    rw [h.queue]
    refine takeRoomy_some (fun x hx => ?_) ((Egress.hasRoom_iff _).mpr h.room)
    have := h.heldBack x hx
    by_contra hc
    rw [Bool.not_eq_false, Egress.hasRoom_iff] at hc
    omega
  simp [State.takeCommand, State.processorReady, h.boundary, h.turn, h.executing, hq, State.updateChannel, State.taken]

/-- A command row whose message the processor takes. -/
theorem executeCommand_of_turn {s : State} {older newer : List Message} {m : Message} {code : Byte}
    (h : Turn s older m newer) (hc : messageCode m = code) (authority : Authority) (rule : State → CommandResult) :
    executeCommand code authority m rule s = (judge authority m rule (s.taken older newer)).deliver m := by
  simp [executeCommand, hc, h.taken_eq]

/-- All that taking a command can do. -/
theorem takeCommand_some {s s1 : State} {m : Message} (h : s.takeCommand m = some s1) :
    ∃ older newer, Turn s older m newer ∧ s1 = s.taken older newer := by
  have taken := h
  unfold State.takeCommand at h
  split at h
  · next hr =>
    split at h
    · next x rest ha =>
      split at h
      · next hx =>
        subst hx
        obtain ⟨older, newer, hq, rfl, hroom, hold⟩ := takeRoomy_inv ha
        simp only [State.processorReady, Bool.and_eq_true, decide_eq_true_eq] at hr
        have turn : Turn s older x newer :=
          ⟨hr.1.1, hr.1.2, hr.2, hq,
           fun y hy => by
             have := hold y hy
             rw [← Bool.not_eq_true, Egress.hasRoom_iff] at this
             omega,
           (Egress.hasRoom_iff _).mp hroom⟩
        rw [turn.taken_eq] at taken
        exact ⟨older, newer, turn, (Option.some.inj taken).symm⟩
      · cases h
    · cases h
  · cases h

/-- The processor's choice is the message at its turn. -/
theorem choice_iff {s : State} {m : Message} : s.choice = some m ↔ ∃ older newer, Turn s older m newer := by
  constructor
  · intro h
    unfold State.choice at h
    split at h
    · next hr =>
      obtain ⟨⟨x, rest⟩, ha, rfl⟩ := Option.map_eq_some_iff.mp h
      have ht : s.takeCommand x = some (s.updateChannel fun c => { c with queue := rest, turn := false }) := by
        simp [State.takeCommand, hr, ha]
      obtain ⟨older, newer, turn, -⟩ := takeCommand_some ht
      exact ⟨older, newer, turn⟩
    · cases h
  · rintro ⟨older, newer, turn⟩
    have ht := turn.taken_eq
    unfold State.takeCommand at ht
    split at ht
    · next hr =>
      split at ht
      · next x rest ha =>
        split at ht
        · next hx => simp [State.choice, hr, ha, hx]
        · cases ht
      · cases ht
    · cases ht

theorem argFin_eq {m : Message} {i n : Nat} {x : Fin n} : argFin m i n = some x ↔ argByte m i = x.val := by
  unfold argFin
  split
  · next h => simp [Fin.ext_iff]
  · next h =>
    constructor
    · intro e; cases e
    · intro e; exact absurd (e ▸ x.isLt) h

theorem argBool_eq {m : Message} {i : Nat} {b : Bool} : argBool m i = some b ↔ argByte m i = (if b then 1 else 0) := by
  unfold argBool
  cases b <;> split <;> (try split) <;> simp_all

/-- The model's test is the law's: a SWITCH too late for its request. -/
theorem switchTooLate_iff {s : State} : switchTooLate s = true ↔ SwitchTooLate s := by
  have named : ∀ (r : RouteRecord) (b : Bool),
      r.list (namedSelect b) = if b then r.backup.getD [] else r.primary := by
    intro r b; cases b <;> rfl
  have other : ∀ (x : ListSelect) (b : Bool), x ≠ namedSelect b ↔ x = if b then .primary else .backup := by
    intro x b; cases x <;> cases b <;> decide
  simp only [switchTooLate, switchMoves, switchPossible, State.available, named, Option.any_eq_true, Bool.and_eq_true,
    Bool.not_eq_true', decide_eq_true_eq, choice_iff, argFin_eq, argBool_eq, other, List.all_eq_true,
    Option.isSome_iff_ne_none]
  constructor
  · rintro ⟨m, ⟨older, newer, turn⟩, i, hi, ⟨⟨⟨⟨hc, hs⟩, hl⟩, -⟩, b, hb, ⟨hp, ha⟩, hsel⟩, hd⟩
    exact ⟨older, newer, m, i, b, turn, hs, hc, hl, hi, hb, hd, hp, ha, hsel⟩
  · rintro ⟨older, newer, m, i, b, turn, hs, hc, hl, hi, hb, hd, hp, ha, hsel⟩
    exact ⟨m, ⟨older, newer, turn⟩, i, hi, ⟨⟨⟨⟨hc, hs⟩, hl⟩, hi⟩, b, hb, ⟨hp, ha⟩, hsel⟩, hd⟩

/-- An event that brings no SWITCH too late does not wait for the look. -/
theorem afterLook_of_intime {s : State} {event : State → State} (h : SwitchTooLate (event s) → SwitchTooLate s) :
    s.afterLook event = event s := by
  unfold State.afterLook
  split
  · next hc =>
    simp only [Bool.and_eq_true, Bool.not_eq_true', ← Bool.not_eq_true, switchTooLate_iff] at hc
    exact absurd (h hc.1) hc.2
  · rfl

/-- One that does comes after the look. -/
theorem afterLook_of_late {s : State} {event : State → State} (h : SwitchTooLate (event s)) (hs : ¬SwitchTooLate s) :
    s.afterLook event = event s.runProcessor := by
  unfold State.afterLook
  rw [if_pos]
  simp only [Bool.and_eq_true, Bool.not_eq_true', ← Bool.not_eq_true, switchTooLate_iff]
  exact ⟨h, hs⟩

/-- All that a command row can do: nothing, or execute its message on the state in which the processor has taken it. -/
theorem executeCommand_cases (code : Byte) (authority : Authority) (m : Message) (rule : State → CommandResult) (s : State) :
    executeCommand code authority m rule s = s ∨
      ∃ older newer, Turn s older m newer ∧ messageCode m = code ∧
        executeCommand code authority m rule s = (judge authority m rule (s.taken older newer)).deliver m := by
  by_cases hc : messageCode m = code
  · cases ht : s.takeCommand m with
    | none => exact .inl (by simp [executeCommand, hc, ht])
    | some s1 =>
      obtain ⟨older, newer, turn, -⟩ := takeCommand_some ht
      exact .inr ⟨older, newer, turn, hc, executeCommand_of_turn turn hc authority rule⟩
  · exact .inl (by simp [executeCommand, hc])

@[simp] theorem judge_anyPort (m : Message) (rule : State → CommandResult) (s : State) :
    judge .anyPort m rule s = rule s := by
  simp [judge, needsControl]

theorem judge_control {m : Message} {s : State} (h : m.source = s.channel.control) (a : Authority)
    (rule : State → CommandResult) : judge a m rule s = rule s := by
  simp [judge, h]

theorem judge_plainRead {m : Message} {s : State} (h : m.bytes[4]? ≠ some 1#8) (rule : State → CommandResult) :
    judge .clearOnly m rule s = rule s := by
  simp [judge, needsControl, h]

theorem judge_refused {m : Message} {s : State} (h : m.source ≠ s.channel.control) {a : Authority}
    (ha : needsControl a m = true) (rule : State → CommandResult) : judge a m rule s = answer s .notOwner := by
  simp [judge, h, ha]

@[simp] theorem taken_control (s : State) (older newer : List Message) :
    (s.taken older newer).channel.control = s.channel.control := rfl

@[simp] theorem taken_ports (s : State) (older newer : List Message) : (s.taken older newer).ports = s.ports := rfl
@[simp] theorem taken_timing (s : State) (older newer : List Message) : (s.taken older newer).timing = s.timing := rfl
@[simp] theorem taken_routes (s : State) (older newer : List Message) : (s.taken older newer).routes = s.routes := rfl
@[simp] theorem taken_pendingCommit (s : State) (older newer : List Message) :
    (s.taken older newer).pendingCommit = s.pendingCommit := rfl
@[simp] theorem taken_profiles (s : State) (older newer : List Message) : (s.taken older newer).profiles = s.profiles := rfl
@[simp] theorem taken_latching (s : State) (older newer : List Message) : (s.taken older newer).latching = s.latching := rfl
@[simp] theorem taken_entered (s : State) (older newer : List Message) : (s.taken older newer).entered = s.entered := rfl
@[simp] theorem taken_slots (s : State) (older newer : List Message) : (s.taken older newer).slots = s.slots := rfl
@[simp] theorem taken_monitors (s : State) (older newer : List Message) : (s.taken older newer).monitors = s.monitors := rfl
@[simp] theorem taken_egress (s : State) (older newer : List Message) : (s.taken older newer).egress = s.egress := rfl
@[simp] theorem taken_events (s : State) (older newer : List Message) : (s.taken older newer).events = s.events := rfl
@[simp] theorem taken_pending (s : State) (older newer : List Message) : (s.taken older newer).pending = s.pending := rfl

/-- A response placed where there is room. -/
theorem respond_eq {s : State} {m : Message} (h : s.egress[m.source].responses.length < 4) (status : Status)
    (results : List Byte) (origin : MessageOrigin) :
    s.respond m status results origin = s.answeredAs m (statusByte status) results origin := by
  unfold State.respond State.answeredAs State.updateEgress
  congr 1
  apply updateAt_congr
  generalize s.egress[m.source] = e at h ⊢
  have room := (Egress.hasRoom_iff _).mpr h
  cases he : e.enabled <;> simp [Egress.place, he, room, responseBytes, responseCode, byteOf]

end Sys2Proof.Machine
end

