-- ==== Sys2Proof/Laws/Footprints.lean ====
section
/-! SUPPORT. For each shared operation, the parts of the state it can write; every other part is as it was. -/

namespace Sys2Proof.Machine.State

variable (s : State)

/-! ### Ingress ports and elastic stores -/

@[simp] theorem nextTick_enabled (p : Port) : p.nextTick.enabled = p.enabled := rfl
@[simp] theorem nextTick_settings (p : Port) : p.nextTick.settings = p.settings := rfl
@[simp] theorem nextTick_state (p : Port) : p.nextTick.state = p.state := rfl
@[simp] theorem nextTick_history (p : Port) : p.nextTick.history = p.history := rfl
@[simp] theorem nextTick_lastArrival (p : Port) : p.nextTick.lastArrival = p.lastArrival := rfl
@[simp] theorem nextTick_store (p : Port) : p.nextTick.store = p.store := rfl
@[simp] theorem nextTick_depthInForce (p : Port) : p.nextTick.depthInForce = p.settings.depthCode := rfl
@[simp] theorem nextTick_missInForce (p : Port) : p.nextTick.missInForce = p.settings.missCode := rfl

/-- A soft reset flushes the store; what it has given to the period it gives up only before the pick, and after the pick the
mixer reads silence in its place. -/
theorem softReset_store (st : ElasticStore) :
    st.softReset.fifo = [] ∧ st.softReset.lastAssigned = silentFrame ∧ st.softReset.pickDue = st.pickDue ∧
      st.softReset.hushed = !st.pickDue ∧ st.softReset.heard = silentFrame := by
  unfold ElasticStore.softReset ElasticStore.heard
  split <;> simp_all [ElasticStore.flush]

/-- R130, R66: which stores a list reads does not depend on the order of its terms. -/
theorem reads_perm {l m : MixList} (h : l.Perm m) (p : PortIdx) : reads l p = reads m p := by
  rw [reads, reads, Bool.eq_iff_iff, List.any_eq_true, List.any_eq_true]
  simp only [h.mem_iff]

theorem ensurePicks_perm {l m : MixList} (h : l.Perm m) : s.ensurePicks l = s.ensurePicks m := by
  simp only [ensurePicks, reads_perm h]

/-- R145: a source reads 0 where the mixer hears the silent frame. -/
theorem readSource_silent (i : SlotIdx) (h : s.ports[laneOf i].store.heard = silentFrame) : s.readSource i = 0 := by
  unfold readSource
  rw [h]
  simp [silentFrame]

theorem failQualification_writes (p : PortIdx) (detail : Word16) :
    ∃ f events, s.failQualification p detail = { s with ports := updateAt s.ports p f, events := events } := by
  unfold failQualification
  dsimp only
  split <;> exact ⟨_, _, rfl⟩

theorem loseSource_writes (p : PortIdx) :
    ∃ events, s.loseSource p = { s with ports := updateAt s.ports p Port.enterLost, events := events } := ⟨_, rfl⟩

theorem reportSlip_writes (p : PortIdx) (detail : Word16) :
    ∃ events, s.reportSlip p detail = { s with events := events } := by
  unfold reportSlip
  split <;> exact ⟨_, rfl⟩

theorem appendFrame_writes (p : PortIdx) (r : FrameRecord) :
    ∃ f events, s.appendFrame p r = { s with ports := updateAt s.ports p f, events := events } := by
  unfold appendFrame
  dsimp only
  split
  · obtain ⟨ev, h⟩ := ((s.updatePort p fun x => { x with store := x.store.append r }).countPort p fun c =>
      { c with slipDrops := saturatingInc c.slipDrops }).reportSlip_writes p detailDrop
    rw [h]
    simp only [countPort, updatePort, updateAt_updateAt]
    exact ⟨_, ev, rfl⟩
  · exact ⟨_, _, rfl⟩

theorem pickFrame_writes (p : PortIdx) :
    ∃ f events, s.pickFrame p = { s with ports := updateAt s.ports p f, events := events } := by
  unfold pickFrame
  dsimp only
  split
  · obtain ⟨ev, h⟩ := ((s.updatePort p fun x => { x with store := x.store.pick x.isLocked }).countPort p fun c =>
      { c with slipRepeats := saturatingInc c.slipRepeats }).reportSlip_writes p detailRepeat
    rw [h]
    simp only [countPort, updatePort, updateAt_updateAt]
    exact ⟨_, ev, rfl⟩
  · exact ⟨_, _, rfl⟩

theorem completeWindow_writes (p : PortIdx) :
    ∃ f events, s.completeWindow p = { s with ports := updateAt s.ports p f, events := events } := by
  unfold completeWindow
  split
  · exact ⟨_, _, rfl⟩
  · exact s.failQualification_writes p detailSlow

theorem takeWindow_writes (p : PortIdx) :
    ∃ f events, s.takeWindow p = { s with ports := updateAt s.ports p f, events := events } := by
  unfold takeWindow
  dsimp only
  split
  · obtain ⟨f, ev, h⟩ := (s.updatePort p Port.countDown).completeWindow_writes p
    rw [h]
    simp only [updatePort, updateAt_updateAt]
    exact ⟨_, ev, rfl⟩
  · exact ⟨_, _, rfl⟩

/-! ### The timing unit -/

theorem fixTiming_writes :
    ∃ timing events, s.fixTiming = { s with timing := timing, events := events } := by
  simp only [fixTiming, updateTiming, latch, raise, updateEvents]
  split <;> split <;> exact ⟨_, _, rfl⟩

/-! ### Management errors and the reassembly buffers -/

theorem mgmtError_writes (p : PortIdx) (detail : Word16) :
    ∃ f events, s.mgmtError p detail = { s with ports := updateAt s.ports p f, events := events } := by
  simp only [mgmtError, countPort, raise, updatePort, updateEvents]
  exact ⟨_, _, rfl⟩

theorem rejectFragment_writes (p : PortIdx) (detail : Word16) :
    ∃ f events, s.rejectFragment p detail = { s with ports := updateAt s.ports p f, events := events } := by
  simp only [rejectFragment, setReassembly, mgmtError, countPort, raise, updatePort, updateEvents, updateAt_updateAt]
  exact ⟨_, _, rfl⟩

theorem takeSilence_writes (p : PortIdx) :
    ∃ f events, s.takeSilence p = { s with ports := updateAt s.ports p f, events := events } := by
  unfold takeSilence
  dsimp only
  split
  · obtain ⟨f, ev, h⟩ := (s.updatePort p Port.countSilence).rejectFragment_writes p detailTimeout
    rw [h]
    simp only [updatePort, updateAt_updateAt]
    exact ⟨_, ev, rfl⟩
  · exact ⟨_, _, rfl⟩

/-! ### Output slots -/

/-- The settle check leaves its finding for the making of the slot's context. -/
theorem checkSettle_writes (i : SlotIdx) :
    ∃ (failed : Bool) (events : EventUnit), s.checkSettle i =
      { s with slots := updateAt s.slots i fun x => { x with settleFailed := x.settleFailed || failed }, events := events } := by
  unfold checkSettle
  dsimp only
  split
  · exact ⟨true, _, by simp [updateSlot, raise, updateEvents]; rfl⟩
  · exact ⟨false, s.events, by rw [updateAt_id _ _ (by simp)]⟩

theorem ensureCheck_writes (i : SlotIdx) :
    ∃ f events, s.ensureCheck i = { s with slots := updateAt s.slots i f, events := events } := by
  unfold ensureCheck
  split
  · obtain ⟨f, ev, h⟩ := s.checkSettle_writes i
    rw [h]
    simp only [updateDue, updateSlot, updateAt_updateAt]
    exact ⟨_, ev, rfl⟩
  · exact ⟨id, s.events, by simp [updateAt_id]⟩

/-- A request of the list changes the slot's context, and may settle its profile's lengths. -/
theorem takeRequest_writes (i : SlotIdx) (r : Request) :
    ∃ (f : SlotContext → SlotContext) (entered : Vector Bool 8) (events : EventUnit), takeRequest i s r =
      { s with
        slots := updateAt s.slots i fun x => { x with context := f x.context }, entered := entered, events := events } := by
  refine ⟨fun c => c.request r.target r.profile s.latching[r.profile], (takeRequest i s r).entered,
    (takeRequest i s r).events, ?_⟩
  simp only [takeRequest, updateContext, updateSlot, markEntered, raise, updateEvents]
  split <;> rfl

theorem takeRequests_writes (i : SlotIdx) :
    ∃ (f : SlotContext → SlotContext) (entered : Vector Bool 8) (events : EventUnit), s.takeRequests i =
      { s with
        slots := updateAt s.slots i fun x => { x with context := f x.context, requests := [] }
        entered := entered
        events := events } := by
  have key : ∀ (l : List Request) (s : State),
      ∃ (f : SlotContext → SlotContext) (entered : Vector Bool 8) (events : EventUnit), l.foldl (takeRequest i) s =
        { s with
          slots := updateAt s.slots i fun x => { x with context := f x.context }, entered := entered, events := events } := by
    intro l
    induction l with
    | nil => intro s; exact ⟨id, s.entered, s.events, by rw [updateAt_id _ _ (by simp)]; rfl⟩
    | cons r l ih =>
      intro s
      obtain ⟨f, en, ev, h⟩ := s.takeRequest_writes i r
      obtain ⟨g, en2, ev2, h2⟩ := ih (takeRequest i s r)
      rw [List.foldl_cons, h2, h]
      simp only [updateAt_updateAt]
      exact ⟨fun c => g (f c), en2, ev2, rfl⟩
  unfold takeRequests
  obtain ⟨f, en, ev, h⟩ := key s.slots[i].requests s
  rw [h]
  simp only [updateSlot, updateAt_updateAt]
  exact ⟨f, en, ev, rfl⟩

theorem stepSlot_writes (i : SlotIdx) :
    ∃ events, s.stepSlot i =
      { s with
        slots := updateAt s.slots i fun x =>
          { x with context := x.context.step s.latching[s.slots[i].context.governing] }
        entered := updateAt s.entered s.slots[i].context.governing (· || s.slots[i].context.stepEnters)
        events := events } := by
  simp only [stepSlot, updateContext, updateSlot, markEntered, raise, updateEvents]
  split <;> exact ⟨_, rfl⟩

/-- The making of a slot's context uses up what waited for it. -/
theorem makeContext_writes (i : SlotIdx) :
    ∃ (f : Slot → SlotContext) (entered : Vector Bool 8) (events : EventUnit), s.makeContext i =
      { s with
        slots := updateAt s.slots i fun x => { x with context := f x, settleFailed := false, requests := [] }
        entered := entered
        events := events } := by
  unfold makeContext
  generalize hu : s.applySettle i = u
  obtain ⟨f, en, ev, h⟩ := u.takeRequests_writes i
  rw [h]
  generalize hv : ({ u with
    slots := updateAt u.slots i fun x => { x with context := f x.context, requests := [] }
    entered := en
    events := ev } : State) = v
  obtain ⟨ev2, h2⟩ := v.stepSlot_writes i
  rw [h2]
  subst hv hu
  simp only [applySettle, updateSlot, updateAt_updateAt]
  exact ⟨_, _, ev2, rfl⟩

theorem moveSlot_eq (i : SlotIdx) (select : ListSelect) (kind : EventKind) :
    s.moveSlot i select kind =
      { s with
        slots := updateAt s.slots i fun x =>
          { x with
            protection := Protection.moved select
            requests := x.requests ++
              [{ target := s.routes[i].active.list select, profile := s.routes[i].active.protectProfile }] }
        events := EventUnit.raise s.timing.periodCounter kind i 0#16 s.events } := by
  unfold moveSlot protectRequest
  have sel : (s.updateProtection i fun _ => Protection.moved select).slots[i].protection.selected = select := by
    simp [Protection.moved]
  dsimp only
  rw [sel]
  simp only [issueRequest, updateProtection, updateSlot, raise, updateEvents, updateAt_updateAt]

/-- What the protection unit's evaluation of a slot can write: its protection record, new requests, and the event unit. -/
def evaluates (s t : State) (i : SlotIdx) : Prop :=
  ∃ (f : Protection → Protection) (new : List Request) (events : EventUnit), t =
    { s with
      slots := updateAt s.slots i fun x => { x with protection := f x.protection, requests := x.requests ++ new }
      events := events }

theorem evaluates_same (i : SlotIdx) : s.evaluates s i :=
  ⟨id, [], s.events, by rw [updateAt_id _ _ (by simp)]⟩

theorem updateProtection_evaluates (i : SlotIdx) (f : Protection → Protection) : s.evaluates (s.updateProtection i f) i :=
  ⟨f, [], s.events, by simp [updateProtection, updateSlot]⟩

theorem moveSlot_evaluates (i : SlotIdx) (select : ListSelect) (kind : EventKind) :
    s.evaluates (s.moveSlot i select kind) i :=
  ⟨fun _ => Protection.moved select, _, _, s.moveSlot_eq i select kind⟩

theorem doubleLose_evaluates (i : SlotIdx) : s.evaluates (s.doubleLose i) i := by
  refine ⟨fun x => { x with wtrTimer := none, doubleLoss := true }, [], (s.doubleLose i).events, ?_⟩
  simp only [doubleLose, updateProtection, updateSlot, latch, raise, updateEvents, List.append_nil]
  split <;> rfl

theorem restoreSlot_evaluates (i : SlotIdx) : s.evaluates (s.restoreSlot i) i := by
  unfold restoreSlot stayAvailable
  split
  · split
    · exact s.moveSlot_evaluates i .primary .revert
    · exact s.updateProtection_evaluates i _
  · exact s.updateProtection_evaluates i _

theorem evaluateSlot_evaluates (i : SlotIdx) : s.evaluates (s.evaluateSlot i) i := by
  unfold evaluateSlot stayAvailable
  dsimp only
  split
  · split <;> exact s.updateProtection_evaluates i _
  · split
    · exact s.updateProtection_evaluates i _
    · split
      · exact s.moveSlot_evaluates i .backup .failover
      · exact s.doubleLose_evaluates i
  · split
    · exact s.restoreSlot_evaluates i
    · split
      · exact s.moveSlot_evaluates i .primary .forcedRevert
      · exact s.doubleLose_evaluates i
  · exact s.evaluates_same i

theorem ensureEvaluation_writes (i : SlotIdx) :
    ∃ f events, s.ensureEvaluation i = { s with slots := updateAt s.slots i f, events := events } := by
  unfold ensureEvaluation
  split
  · obtain ⟨f, new, ev, h⟩ := s.evaluateSlot_evaluates i
    rw [h]
    simp only [updateDue, updateSlot, updateAt_updateAt]
    exact ⟨_, ev, rfl⟩
  · exact ⟨id, s.events, by simp [updateAt_id]⟩

/-- The notice, and the commit's request for the list it selects. -/
theorem takeNotice_writes (i : SlotIdx) :
    s.takeNotice i =
      { s with
        slots := updateAt s.slots i fun x =>
          { x with
            protection := Protection.moved (s.noticeSelect s.routes[i].active)
            requests := x.requests ++
              [{ target := s.routes[i].active.list (s.noticeSelect s.routes[i].active)
                 profile := s.routes[i].active.profile }]
            due := { x.due with notice := false } } } := by
  simp only [takeNotice, issueRequest, updateProtection, updateDue, updateSlot, updateAt_updateAt]

/-- One entry replaced: its own route, and the notice for its slot. -/
theorem replaceEntry_writes (i : SlotIdx) :
    s.replaceEntry i =
      { s with
        slots := updateAt s.slots i fun x => { x with due := { x.due with notice := true } }
        routes := updateAt s.routes i fun e => { e with active := e.staging, dirty := false } } := rfl

/-- Entries replaced one after another: each of them, and nothing else. -/
theorem replaceEntries_writes (l : List SlotIdx) :
    ∃ (slots : Vector Slot 64) (routes : Vector RouteEntry 64),
      l.foldl replaceEntry s = { s with slots := slots, routes := routes } ∧
        ∀ i : SlotIdx,
          slots[i] = (if i ∈ l then { s.slots[i] with due := { s.slots[i].due with notice := true } } else s.slots[i]) ∧
          routes[i] =
            (if i ∈ l then { s.routes[i] with active := s.routes[i].staging, dirty := false } else s.routes[i]) := by
  induction l generalizing s with
  | nil => exact ⟨s.slots, s.routes, rfl, fun i => by simp⟩
  | cons j l ih =>
    obtain ⟨slots, routes, h, hi⟩ := ih (s.replaceEntry j)
    refine ⟨slots, routes, by rw [List.foldl_cons, h, replaceEntry_writes], fun i => ?_⟩
    obtain ⟨hs, hr⟩ := hi i
    rw [hs, hr, replaceEntry_writes]
    by_cases hij : j = i
    · subst hij; simp
    · simp [Fin.val_inj, hij, Ne.symm hij]

/-- All that a commit taking effect does in the commit unit. -/
theorem takeCommit_writes (c : PendingCommit) :
    ∃ (slots : Vector Slot 64) (routes : Vector RouteEntry 64),
      s.takeCommit c =
        { s with
          slots := slots
          routes := routes
          pendingCommit := none
          events := EventUnit.raise s.timing.periodCounter .commitDone 0 (BitVec.ofNat 16 (s.dirtyIn c.mask).length)
            s.events } ∧
        ∀ i : SlotIdx,
          slots[i] = (if i ∈ s.dirtyIn c.mask then { s.slots[i] with due := { s.slots[i].due with notice := true } }
            else s.slots[i]) ∧
          routes[i] = (if i ∈ s.dirtyIn c.mask then { s.routes[i] with active := s.routes[i].staging, dirty := false }
            else s.routes[i]) := by
  obtain ⟨slots, routes, h, hi⟩ := s.replaceEntries_writes (s.dirtyIn c.mask)
  refine ⟨slots, routes, ?_, hi⟩
  unfold takeCommit
  dsimp only
  rw [h]
  rfl

/-- A written profile: its lengths, and those its phases latch at this boundary. -/
theorem writeProfile_writes (i : Fin 8) (x : Profile) :
    writeProfile s i x =
      { s with
        profiles := updateAt s.profiles i fun _ => x
        latching := if s.entered[i] then s.latching else updateAt s.latching i fun _ => x } := by
  unfold writeProfile
  split <;> rfl

/-- The mixer writes a slot's meters and output, and the event unit. -/
theorem mixSlot_writes (i : SlotIdx) :
    ∃ (meters : Meters → Meters) (output : OutputSample) (events : EventUnit), s.mixSlot i =
      { s with
        slots := updateAt s.slots i fun x => { x with meters := meters x.meters, output := output }
        events := events } := by
  simp only [mixSlot, updateSlot, latch, raise, updateEvents]
  split
  · split <;> exact ⟨_, _, _, rfl⟩
  · exact ⟨_, _, _, rfl⟩

theorem evaluateMonitor_writes (m : Fin 4) :
    ∃ f events, s.evaluateMonitor m = { s with monitors := updateAt s.monitors m f, events := events } := by
  simp only [evaluateMonitor, updateMonitor, raise, updateEvents]
  split <;> exact ⟨_, _, rfl⟩

/-! ### Egress ports -/

/-- A message fully sent writes its egress port, the processor's state, and the event unit. -/
theorem completeSending_writes (e : PortIdx) :
    ∃ f processor events, s.completeSending e =
      { s with
        egress := updateAt s.egress e f
        channel := { s.channel with processor := processor }
        events := events } := by
  unfold completeSending
  split
  · next x _ =>
    cases x.origin <;> simp only [messageEffect, updateEgress, updateChannel, updateEvents] <;> exact ⟨_, _, _, rfl⟩
  · exact ⟨id, s.channel.processor, s.events, by simp [updateAt_id]⟩

theorem pickMessage_writes (e : PortIdx) :
    ∃ f events, s.pickMessage e = { s with egress := updateAt s.egress e f, events := events } := by
  have same : s = { s with egress := updateAt s.egress e id } := by simp [updateAt_id]
  simp only [pickMessage, updateEgress]
  split
  · exact ⟨id, s.events, same⟩
  · split
    · simp only [pickReport, updateEgress, updateEvents]
      split
      · split
        · exact ⟨_, _, rfl⟩
        · exact ⟨id, s.events, same⟩
      · exact ⟨id, s.events, same⟩
    · exact ⟨_, _, rfl⟩

theorem takeTransmitter_writes (e : PortIdx) :
    ∃ f processor events, s.takeTransmitter e =
      { s with
        egress := updateAt s.egress e f
        channel := { s.channel with processor := processor }
        events := events } := by
  unfold takeTransmitter
  split
  · obtain ⟨f, pr, ev, h⟩ := s.completeSending_writes e
    rw [h]
    generalize hu : ({ s with egress := updateAt s.egress e f, channel := { s.channel with processor := pr }, events := ev } :
      State) = u
    obtain ⟨g, ev2, h2⟩ := u.pickMessage_writes e
    rw [h2]
    subst hu
    simp only [updateEgress, updateAt_updateAt]
    exact ⟨_, pr, ev2, rfl⟩
  · exact ⟨_, s.channel.processor, s.events, rfl⟩

theorem sendFrame_writes (e : PortIdx) : ∃ f, s.sendFrame e = { s with egress := updateAt s.egress e f } := ⟨_, rfl⟩

theorem abandonSending_writes (e : PortIdx) : ∃ events, s.abandonSending e = { s with events := events } := by
  unfold abandonSending
  split
  · split <;> exact ⟨_, rfl⟩
  · exact ⟨_, rfl⟩

/-! ### Time -/

/-- A timer found to expire runs. -/
theorem nextExpiry_runs {s : State} {now limit t : Nat} {p : PortIdx} (h : s.nextExpiry now limit = some (p, t)) :
    s.ports[p].timerRuns = true := by
  have runs : ∀ (q : PortIdx) (u : Nat), s.ports[q].expiryTick now = some u → s.ports[q].timerRuns = true := by
    intro q u hq
    unfold Port.expiryTick at hq
    split at hq
    · next hx =>
      unfold Port.missExceeded Port.missElapsed at hx
      split at hx <;> simp_all
    · split at hq
      · assumption
      · cases hq
  have key : ∀ (l : List PortIdx) (best : Option (PortIdx × Nat)),
      (∀ q u, best = some (q, u) → s.ports[q].timerRuns = true) →
      ∀ q u, l.foldl (fun best p =>
        match s.ports[p].expiryTick now with
        | some t =>
          if t < limit then
            match best with
            | some (q, u) => if t < u then some (p, t) else some (q, u)
            | none => some (p, t)
          else best
        | none => best) best = some (q, u) → s.ports[q].timerRuns = true := by
    intro l
    induction l with
    | nil => intro best hb q u h; exact hb q u h
    | cons x l ih =>
      intro best hb
      refine ih _ ?_
      intro q u h
      dsimp only at h
      split at h
      · next tx hx =>
        split at h
        · split at h
          · next y v =>
            split at h
            · cases h; exact runs _ _ hx
            · exact hb q u h
          · cases h; exact runs _ _ hx
        · exact hb q u h
      · exact hb q u h
  exact key _ none (by simp) p t h

end Sys2Proof.Machine.State
end

