-- ==== Sys2Proof/Laws/Blocks.lean ====
section
/-! SUPPORT. A step is made of the blocks' operations: what each of them keeps, every step keeps. -/

namespace Sys2Proof.Machine

/-- P is kept by each operation the steps are made of, under the condition under which the steps use it. -/
structure KeptByBlocks (P : State → Prop) : Prop where
  queue : ∀ s rows, P s → P (s.withPending rows)
  afterReset : ∀ cause control rows, P ((State.afterReset cause control).withPending rows)
  softReset : ∀ s, P s → P s.softReset
  passTicks : ∀ s n, P s → P (s.passTicks n)
  beginBoundary : ∀ s, P s → P (s.beginPeriod.updateEvents EventUnit.ageRecords).armPicks.armWorks
  timing : ∀ s, P s → P s.fixTiming
  commit : ∀ s c, s.commitDue = some c → P s → P (s.takeCommit c)
  window : ∀ s p, P s → P (s.takeWindow p)
  loseSource : ∀ s p, s.ports[p].timerRuns = true → P s → P (s.loseSource p)
  silence : ∀ s p, P s → P (s.takeSilence p)
  sent : ∀ s e, P s → P (s.completeSending e)
  reportTimeout : ∀ s n, P s → P (s.updateEvents (EventUnit.timeOut n))
  pick : ∀ s p, P s → P (s.pickFrame p)
  settle : ∀ s i, P s → P (s.checkSettle i)
  notice : ∀ s i, P s → P (s.takeNotice i)
  evaluate : ∀ s i, P s → P (s.evaluateSlot i)
  makeContext : ∀ s i, P s → P (s.makeContext i)
  mixSlot : ∀ s i, P s → P (s.mixSlot i)
  due : ∀ s i f, (∀ d : SlotDue, (f d).notice = d.notice) → P s → P (s.updateDue i f)
  monitor : ∀ s m, P s → P (s.evaluateMonitor m)
  pickMessage : ∀ s e, s.egress[e].enabled = true → P s → P (s.pickMessage e)
  serve : ∀ (s : State) e, P s → P (s.updateEgress e Egress.serve)
  pass : ∀ (s : State) e, P s → P (s.updateEgress e Egress.pass)
  sendFrame : ∀ s e, P s → P (s.sendFrame e)
  candidate : ∀ s p n f, s.framerIn p .searching = true → P s → P (s.examineCandidate p n f)
  confirming : ∀ s p f, s.framerIn p .confirming = true → P s → P (s.examineConfirming p f)
  arrival : ∀ s p f, s.framerIn p .aligned = true → frameValid f = true → P s → P (s.examineArrival p f)
  crcError : ∀ s p, s.framerIn p .aligned = true → P s → P (s.examineCrcError p)
  missing : ∀ s p, s.framerIn p .aligned = true → P s → P (s.examineMissing p)
  taken : ∀ s older m newer, Turn s older m newer → P s → P (s.taken older newer)
  endTurn : ∀ s, P s → P s.endTurn
  respond : ∀ s m status results origin, P s → P (s.respond m status results origin)
  halt : ∀ s, P s → P (s.updateChannel fun c => { c with processor := .halted })
  control : ∀ s p, s.ports[p].enabled = true → s.egress[p].enabled = true → P s → P (moveControl s p)
  enableEgress : ∀ s e, P s → P (enableEgress s e)
  disableEgress : ∀ s e, e ≠ s.channel.control → P s → P (disableEgress s e)
  configurePort : ∀ s p enable x, (enable = false → p ≠ s.channel.control) → P s → P (configurePort s p enable x)
  restartPort : ∀ s p, P s → P (restartPort s p)
  clearCounters : ∀ s p clear, P s → P (clearCounters s p clear)
  source : ∀ (s : State) x, P s → P (s.updateTiming fun t => { t with source := x })
  stage : ∀ s m i r, argRecord m = some (i, r) → P s → P (s.stageEntry i r)
  copyActive : ∀ s mask, P s → P (s.copyActive mask)
  pendingCommit : ∀ s c, P s → P (s.setPendingCommit c)
  profile : ∀ s i x, P s → P (writeProfile s i x)
  clearClip : ∀ s i clear, P s → P (clearClipCounter s i clear)
  clearMeters : ∀ s e clear, P s → P (clearMeters s e clear)
  switch : ∀ s i select, switchPossible s i select = true → P s → P (switchSlot s i select)
  monitorConfig : ∀ s n f, P s → P (s.updateMonitor n f)
  eventConfig : ∀ (s : State) k x, (x.enabled = false → kindFixed k = false) → P s →
    P (s.updateEvents fun u => { u with config := updateAt u.config k fun _ => x })
  acknowledge : ∀ s numbers, P s →
    P (s.updateEvents fun u => (u.acknowledgeAll s.timing.periodCounter numbers).1.resume)
  clearAlarms : ∀ s mask, P s → P (clearAlarms s mask)
  pinMask : ∀ (s : State) mask, P s → P (s.updateEvents fun u => { u with pinMask := mask })

namespace KeptByBlocks

variable {P : State → Prop} (k : KeptByBlocks P) {s : State}
include k

theorem ensurePick (p : PortIdx) (h : P s) : P (s.ensurePick p) := by
  unfold State.ensurePick
  split
  · exact k.pick _ _ h
  · exact h

theorem ensureTiming (h : P s) : P s.ensureTiming := by
  unfold State.ensureTiming
  split
  · exact k.timing _ h
  · exact h

theorem ensureWindow (p : PortIdx) (h : P s) : P (s.ensureWindow p) := by
  unfold State.ensureWindow
  split
  · exact k.window _ _ h
  · exact h

theorem ensureSilence (p : PortIdx) (h : P s) : P (s.ensureSilence p) := by
  unfold State.ensureSilence
  split
  · exact k.silence _ _ h
  · exact h

theorem takeCommitIfDue (h : P s) : P s.takeCommitIfDue := by
  unfold State.takeCommitIfDue
  split
  · next c hc => exact k.commit _ _ hc h
  · exact h

theorem commitFor (i : SlotIdx) (h : P s) : P (s.commitFor i) := by
  unfold State.commitFor
  split
  · exact k.takeCommitIfDue h
  · exact h

theorem ensureCheck (i : SlotIdx) (h : P s) : P (s.ensureCheck i) := by
  unfold State.ensureCheck
  split
  · exact k.due _ _ _ (fun _ => rfl) (k.settle _ _ h)
  · exact h

theorem ensureNotice (i : SlotIdx) (h : P s) : P (s.ensureNotice i) := by
  unfold State.ensureNotice
  split
  · exact k.notice _ _ h
  · exact h

theorem ensureEvaluation (i : SlotIdx) (h : P s) : P (s.ensureEvaluation i) := by
  unfold State.ensureEvaluation
  split
  · exact k.due _ _ _ (fun _ => rfl) (k.evaluate _ _ h)
  · exact h

theorem ensureProtect (i : SlotIdx) (h : P s) : P (s.ensureProtect i) :=
  k.ensureEvaluation i (k.ensureNotice i (k.commitFor i h))

theorem commitTakesEffect (h : P s) : P s.commitTakesEffect := by
  unfold State.commitTakesEffect
  split
  · next c hc => exact foldl_keeps (P := P) (fun s i h => k.ensureProtect i h) (k.commit _ _ hc h)
  · exact h

theorem ensureStep (i : SlotIdx) (h : P s) : P (s.ensureStep i) := by
  unfold State.ensureStep
  split
  · exact k.due _ _ _ (fun _ => rfl) (k.makeContext _ _ (k.ensureProtect i (k.ensureCheck i h)))
  · exact h

theorem ensurePicks (l : MixList) (h : P s) : P (s.ensurePicks l) := by
  unfold State.ensurePicks
  refine forEach_keeps (P := P) (fun p s h => ?_) h
  split
  · exact k.ensurePick p h
  · exact h

theorem mixPicked (i : SlotIdx) (h : P s) : P (s.mixPicked i) :=
  k.due _ _ _ (fun _ => rfl) (k.mixSlot _ _ (k.ensurePicks _ h))

theorem ensureMix (i : SlotIdx) (h : P s) : P (s.ensureMix i) := by
  unfold State.ensureMix
  split
  · exact k.mixPicked i (k.ensureStep i h)
  · exact h

theorem ensureMonitor (m : Fin 4) (h : P s) : P (s.ensureMonitor m) := by
  unfold State.ensureMonitor
  split
  · exact k.monitor _ _ (k.ensureMix _ h)
  · exact h

theorem takeTransmitter (e : PortIdx) (h : P s) : P (s.takeTransmitter e) := by
  unfold State.takeTransmitter
  split
  · next he =>
    refine k.serve _ _ (k.pickMessage _ _ ?_ (k.sent _ _ h))
    have : (s.completeSending e).egress[e].enabled = s.egress[e].enabled := by
      unfold State.completeSending
      split
      · next x _ => cases x.origin <;> simp [State.messageEffect]
      · rfl
    rw [this]
    exact he
  · exact k.pass _ _ h

theorem ensureTransmitter (e : PortIdx) (h : P s) : P (s.ensureTransmitter e) := by
  unfold State.ensureTransmitter
  split
  · exact k.takeTransmitter e h
  · exact h

theorem ensureMixes (e : PortIdx) (h : P s) : P (s.ensureMixes e) := forEach_keeps (fun _ _ h => k.ensureMix _ h) h

theorem ensureFrame (e : PortIdx) (h : P s) : P (s.ensureFrame e) := by
  unfold State.ensureFrame
  split
  · exact k.sendFrame _ _ (k.ensureTransmitter e (k.ensureMixes e h))
  · exact h

theorem softResetIfDue (h : P s) : P s.softResetIfDue := by
  unfold State.softResetIfDue
  split
  · exact k.softReset _ h
  · exact h

theorem expireIfExceeded (p : PortIdx) (h : P s) : P (s.expireIfExceeded p) := by
  unfold State.expireIfExceeded
  split
  · next he =>
    refine k.loseSource _ _ ?_ h
    unfold Port.missExceeded Port.missElapsed at he
    by_contra hr
    simp [-Fin.getElem_fin, hr] at he
  · exact h

theorem timeOutReports (h : P s) : P s.timeOutReports := by
  unfold State.timeOutReports
  induction s.events.queue.filter EventUnit.timedOut generalizing s with
  | nil => exact h
  | cons r l ih => exact ih (k.reportTimeout _ _ h)

/-! ### Commands -/

theorem deliver {r : CommandResult} (m : Message) (h : P r.state) : P (r.deliver m) := k.respond _ _ _ _ _ h

/-- A command row keeps what its rule keeps. -/
theorem command {code : Byte} {a : Authority} {m : Message} {rule : State → CommandResult}
    (rules : ∀ s, P s → P (rule s).state) (h : P s) : P (executeCommand code a m rule s) := by
  rcases executeCommand_cases code a m rule s with e | ⟨older, newer, turn, -, e⟩
  · rw [e]; exact h
  · rw [e]
    refine k.deliver m ?_
    have ht := k.taken _ _ _ _ turn h
    unfold judge
    split
    · exact ht
    · exact rules _ ht

theorem unrecognisedCode (m : Message) (h : P s) : P (runUnrecognisedCode m s) := by
  unfold runUnrecognisedCode refuseCode
  split
  · exact h
  · split
    · next s1 ht =>
      obtain ⟨older, newer, turn, rfl⟩ := takeCommand_some ht
      exact k.deliver m (k.taken _ _ _ _ turn h)
    · exact h

theorem identify (m : Message) (h : P s) : P (runIdentify m s) :=
  k.command (fun s h => by unfold identifyRule; split <;> exact h) h

theorem softResetCommand (m : Message) (h : P s) : P (runSoftReset m s) :=
  k.command (fun s h => by
    unfold softResetRule
    split
    · exact k.halt _ h
    · exact h) h

theorem setControl (m : Message) (h : P s) : P (runSetControl m s) :=
  k.command (fun s h => by
    unfold setControlRule
    split
    · split
      · next hc =>
        simp only [Bool.and_eq_true] at hc
        exact k.control _ _ hc.1.2 hc.2 h
      · exact h
    · exact h) h

theorem portConfig (m : Message) (h : P s) : P (runPortConfig m s) :=
  k.command (fun s h => by
    unfold portConfigRule
    split
    · split
      · exact h
      · next hc => exact k.configurePort _ _ _ _ (fun he hp => hc (by simp [he, hp])) h
    · exact h) h

theorem portRestart (m : Message) (h : P s) : P (runPortRestart m s) :=
  k.command (fun s h => by
    unfold portRestartRule
    split
    · split
      · exact k.restartPort _ _ h
      · exact h
    · exact h) h

theorem readPort (m : Message) (h : P s) : P (runReadPort m s) :=
  k.command (fun s h => by
    unfold readPortRule
    split
    · split
      · exact k.clearCounters _ _ _ h
      · exact h
    · exact h) h

theorem timingConfig (m : Message) (h : P s) : P (runTimingConfig m s) :=
  k.command (fun s h => by
    unfold timingConfigRule
    split
    · split
      · exact k.source _ _ (k.ensureTiming h)
      · exact h
    · exact h) h

theorem readTiming (m : Message) (h : P s) : P (runReadTiming m s) :=
  k.command (fun s h => by
    unfold readTimingRule
    split
    · exact k.ensureTiming h
    · exact h) h

theorem stageEntry (m : Message) (h : P s) : P (runStageEntry m s) :=
  k.command (fun s h => by
    unfold stageEntryRule
    split
    · next i r hr =>
      split
      · exact h
      · exact k.stage _ m _ _ hr h
    · exact h) h

theorem copyActiveCommand (m : Message) (h : P s) : P (runCopyActive m s) :=
  k.command (fun s h => by
    unfold copyActiveRule
    split
    · split
      · exact h
      · split
        · exact k.copyActive _ _ h
        · exact h
    · exact h) h

theorem readEntry (m : Message) (h : P s) : P (runReadEntry m s) :=
  k.command (fun s h => by
    unfold readEntryRule
    split
    · split <;> exact h
    · exact h) h

theorem commitCommand (m : Message) (h : P s) : P (runCommit m s) :=
  k.command (fun s h => by
    unfold commitRule
    split
    · split
      · exact h
      · split
        · exact h
        · split
          · exact k.pendingCommit _ _ h
          · exact h
    · exact h) h

theorem cancelCommit (m : Message) (h : P s) : P (runCancelCommit m s) :=
  k.command (fun s h => by
    unfold cancelCommitRule
    split
    · exact h
    · split
      · exact k.pendingCommit _ _ h
      · exact h) h

theorem readCommit (m : Message) (h : P s) : P (runReadCommit m s) :=
  k.command (fun s h => by unfold readCommitRule; split <;> exact h) h

theorem writeProfile (m : Message) (h : P s) : P (runWriteProfile m s) :=
  k.command (fun s h => by
    unfold writeProfileRule
    split
    · split
      · exact k.profile _ _ _ h
      · exact h
    · exact h) h

theorem readProfile (m : Message) (h : P s) : P (runReadProfile m s) :=
  k.command (fun s h => by
    unfold readProfileRule
    split
    · split <;> exact h
    · exact h) h

theorem readSlot (m : Message) (h : P s) : P (runReadSlot m s) :=
  k.command (fun s h => by
    unfold readSlotRule
    split
    · split
      · exact k.clearClip _ _ _ h
      · exact h
    · exact h) h

theorem noticeFirst (i : SlotIdx) (h : P s) : P (noticeFirst s i) := by
  unfold Machine.noticeFirst
  split
  · exact k.ensureProtect i h
  · exact h

theorem executeSwitch (i : SlotIdx) (select : ListSelect) (h : P s) : P (executeSwitch s i select).state := by
  unfold Machine.executeSwitch
  split
  · next hp => exact k.switch _ _ _ hp h
  · exact h

theorem switchCommand (m : Message) (h : P s) : P (runSwitch m s) :=
  k.command (fun s h => by
    unfold switchRule
    split
    · split
      · exact h
      · exact k.executeSwitch _ _ (k.noticeFirst _ h)
    · exact h) h

theorem egressConfig (m : Message) (h : P s) : P (runEgressConfig m s) :=
  k.command (fun s h => by
    unfold egressConfigRule
    split
    · next e enable _ _ =>
      split
      · exact h
      · next hc =>
        split
        · exact k.enableEgress _ _ h
        · next he => exact k.disableEgress _ _ (fun hp => hc (by simp [he, hp])) h
    · exact h) h

theorem readMeters (m : Message) (h : P s) : P (runReadMeters m s) :=
  k.command (fun s h => by
    unfold readMetersRule
    split
    · split
      · exact k.clearMeters _ _ _ h
      · exact h
    · exact h) h

theorem monitorConfigCommand (m : Message) (h : P s) : P (runMonitorConfig m s) :=
  k.command (fun s h => by
    unfold monitorConfigRule
    split
    · split
      · exact k.monitorConfig _ _ _ h
      · exact h
    · exact h) h

theorem eventConfigCommand (m : Message) (h : P s) : P (runEventConfig m s) :=
  k.command (fun s h => by
    unfold eventConfigRule
    split
    · split
      · exact h
      · next hc =>
        refine k.eventConfig _ _ _ (fun he => ?_) h
        by_contra hk
        simp only [Bool.not_eq_false] at hk
        simp only [Bool.or_eq_true, not_or] at hc
        exact hc.2 (by simpa [hk] using he)
    · exact h) h

theorem eventAck (m : Message) (h : P s) : P (runEventAck m s) :=
  k.command (fun s h => by
    unfold eventAckRule
    split
    · exact k.acknowledge _ _ h
    · exact h) h

theorem readAlarms (m : Message) (h : P s) : P (runReadAlarms m s) :=
  k.command (fun s h => by unfold readAlarmsRule; split <;> exact h) h

theorem clearAlarmsCommand (m : Message) (h : P s) : P (runClearAlarms m s) :=
  k.command (fun s h => by
    unfold clearAlarmsRule
    split
    · split
      · exact k.clearAlarms _ _ h
      · exact h
    · exact h) h

theorem alarmConfig (m : Message) (h : P s) : P (runAlarmConfig m s) :=
  k.command (fun s h => by
    unfold alarmConfigRule
    split
    · split
      · exact k.pinMask _ _ h
      · exact h
    · exact h) h

theorem message (m : Message) (h : P s) : P (runMessage m s) := by
  unfold runMessage
  split
  · exact k.identify m h
  · exact k.softResetCommand m h
  · exact k.setControl m h
  · exact k.portConfig m h
  · exact k.portRestart m h
  · exact k.readPort m h
  · exact k.timingConfig m h
  · exact k.readTiming m h
  · exact k.stageEntry m h
  · exact k.copyActiveCommand m h
  · exact k.readEntry m h
  · exact k.commitCommand m h
  · exact k.cancelCommit m h
  · exact k.readCommit m h
  · exact k.writeProfile m h
  · exact k.readProfile m h
  · exact k.readSlot m h
  · exact k.switchCommand m h
  · exact k.egressConfig m h
  · exact k.readMeters m h
  · exact k.monitorConfigCommand m h
  · exact k.eventConfigCommand m h
  · exact k.eventAck m h
  · exact k.readAlarms m h
  · exact k.clearAlarmsCommand m h
  · exact k.alarmConfig m h
  · exact k.unrecognisedCode m h

/-! ### Boundaries and the passing of time -/

theorem runProcessor (h : P s) : P s.runProcessor := by
  unfold State.runProcessor
  split
  · split
    · exact k.message _ h
    · exact k.endTurn _ h
  · exact h

theorem switchFirst (i : SlotIdx) (h : P s) : P (s.switchFirst i) := by
  have h1 := k.ensureProtect i (k.ensureCheck i h)
  unfold State.switchFirst
  split
  · dsimp only
    split
    · exact k.runProcessor h1
    · exact h1
  · exact h

theorem switchesFirst (e : PortIdx) (h : P s) : P (s.switchesFirst e) :=
  forEach_keeps (fun _ _ h => k.switchFirst _ h) h

theorem afterLook {event : State → State} (he : ∀ s, P s → P (event s)) (h : P s) : P (s.afterLook event) := by
  unfold State.afterLook
  split
  · exact he _ (k.runProcessor h)
  · exact he _ h

theorem finishSlot (i : SlotIdx) (h : P s) : P (s.finishSlot i) :=
  k.ensureMix i (k.ensureStep i (k.ensureProtect i (k.ensureCheck i h)))

theorem finishBoundary (h : P s) : P s.finishBoundary := by
  unfold State.finishBoundary
  split
  · refine forEach_keeps (fun e s h => k.ensureFrame e (k.ensureTransmitter e h))
      (forEach_keeps (fun m s h => k.ensureMonitor m h) (forEach_keeps (fun i s h => k.finishSlot i h)
        (forEach_keeps (fun p s h => k.ensurePick p h) ?_)))
    refine k.runProcessor (k.timeOutReports (forEach_keeps (fun e s h => k.sent _ _ h) (forEach_keeps (fun p s h => ?_) ?_)))
    · exact k.ensureSilence p (k.ensureWindow p h)
    · exact k.takeCommitIfDue (k.ensureTiming (k.softResetIfDue h))
  · exact h

theorem expireBefore (now limit n : Nat) (h : P s) : P (State.expireBefore now limit n s) := by
  induction n generalizing s with
  | zero => exact h
  | succ n ih =>
    unfold State.expireBefore
    split
    · next p t hp => exact ih (k.loseSource _ _ (State.nextExpiry_runs hp) h)
    · exact h

theorem letPass (n : Nat) (h : P s) : P (s.letPass n) := k.passTicks _ _ (k.expireBefore _ _ _ h)

theorem elapse (n : Nat) (h : P s) : P (s.elapse n) := by
  unfold State.elapse
  split
  · exact h
  · exact k.letPass _ (k.finishBoundary h)

theorem openBoundary (h : P s) : P s.openBoundary := k.beginBoundary _ (k.letPass _ (k.finishBoundary h))

theorem transmitterWork (e : PortIdx) (h : P s) : P (s.transmitterWork e) := by
  unfold State.transmitterWork
  refine k.afterLook (fun _ h => k.ensureTransmitter e h) ?_
  split
  · exact k.sent _ _ h
  · exact h

theorem frameWork (e : PortIdx) (h : P s) : P (s.frameWork e) := by
  unfold State.frameWork
  split
  · exact k.ensureFrame e (k.transmitterWork e (k.ensureMixes e (k.switchesFirst e h)))
  · exact h

theorem takeWork (w : Work) (h : P s) : P (s.takeWork w) := by
  cases w with
  | timing => exact k.ensureTiming h
  | window p => exact k.ensureWindow p h
  | silence p => exact k.ensureSilence p h
  | commit => exact k.takeCommitIfDue h
  | look => exact k.runProcessor h
  | pick p => exact k.ensurePick p h
  | check i => exact k.ensureCheck i h
  | protect i => exact k.ensureProtect i h
  | transition i => exact k.ensureStep i (k.switchFirst i h)
  | mix i => exact k.ensureMix i (k.switchFirst i h)
  | monitor m => exact k.ensureMonitor m (k.switchFirst _ h)
  | transmitter e => exact k.transmitterWork e h
  | frame e => exact k.frameWork e h

/-- Every row keeps it. -/
theorem exec_keeps {i : Instr} {t : State} (h : P s) (he : exec i s = .next t) : P t := by
  cases i <;> simp only [exec] at he
  case powerOnReset c => cases he; exact k.afterReset _ _ _
  case pinReset c => cases he; exact k.afterReset _ _ _
  case softResetTakesEffect => cases he; exact k.softResetIfDue h
  case boundary part =>
    cases part <;> simp only [execBoundary, Host.Outcome.next.injEq] at he <;> subst he
    · exact k.finishBoundary (k.openBoundary h)
    · exact k.openBoundary h
    · exact k.takeWork _ h
    · exact k.finishBoundary h
  case windowComplete p =>
    cases he
    split
    · exact k.window _ _ h
    · exact h
  case missTimeout p n => cases he; exact k.expireIfExceeded p (k.elapse n h)
  case candidate p n pos f =>
    cases he
    unfold State.candidateAt
    split
    · next hc =>
      simp only [Bool.and_eq_true] at hc
      exact k.candidate _ _ _ _ hc.1.1 (k.elapse n h)
    · exact k.elapse n h
  case confirmingFrame p n f =>
    cases he
    refine k.afterLook (fun s h => ?_) (k.elapse n h)
    unfold State.confirmingAt
    split
    · next hc => exact k.confirming _ _ _ hc h
    · exact h
  case arrival p n f =>
    cases he
    refine k.afterLook (fun s h => ?_) (k.elapse n h)
    unfold State.arrivalAt
    split
    · next hc =>
      simp only [Bool.and_eq_true] at hc
      exact k.arrival _ _ _ hc.1 hc.2 h
    · exact h
  case crcErrorFrame p n f =>
    cases he
    unfold State.crcErrorAt
    split
    · next hc =>
      simp only [Bool.and_eq_true] at hc
      exact k.crcError _ _ hc.1.1 (k.elapse n h)
    · exact k.elapse n h
  case missingMarker p n f =>
    cases he
    unfold State.missingAt
    split
    · next hc =>
      simp only [Bool.and_eq_true] at hc
      exact k.missing _ _ hc.1 (k.elapse n h)
    · exact k.elapse n h
  case reassemblyTimeout p =>
    cases he
    split
    · exact k.silence _ _ h
    · exact h
  case commitTakesEffect => cases he; exact k.commitTakesEffect h
  case phaseEnd i =>
    cases he
    split
    · exact k.ensureStep i (k.switchFirst i h)
    · exact h
  case revert i =>
    cases he
    split
    · exact k.ensureProtect i h
    · exact h
  case levelHoldReached m =>
    cases he
    split
    · exact k.ensureMonitor m (k.switchFirst _ h)
    · exact h
  case messageFullySent e => cases he; exact k.sent _ _ h
  case reportTimeout n => cases he; exact k.reportTimeout _ _ h
  case unrecognisedCode m => cases he; exact k.unrecognisedCode m h
  case identify m => cases he; exact k.identify m h
  case softReset m => cases he; exact k.softResetCommand m h
  case setControl m => cases he; exact k.setControl m h
  case portConfig m => cases he; exact k.portConfig m h
  case portRestart m => cases he; exact k.portRestart m h
  case readPort m => cases he; exact k.readPort m h
  case timingConfig m => cases he; exact k.timingConfig m h
  case readTiming m => cases he; exact k.readTiming m h
  case stageEntry m => cases he; exact k.stageEntry m h
  case copyActive m => cases he; exact k.copyActiveCommand m h
  case readEntry m => cases he; exact k.readEntry m h
  case commit m => cases he; exact k.commitCommand m h
  case cancelCommit m => cases he; exact k.cancelCommit m h
  case readCommit m => cases he; exact k.readCommit m h
  case writeProfile m => cases he; exact k.writeProfile m h
  case readProfile m => cases he; exact k.readProfile m h
  case readSlot m => cases he; exact k.readSlot m h
  case switch m => cases he; exact k.switchCommand m h
  case egressConfig m => cases he; exact k.egressConfig m h
  case readMeters m => cases he; exact k.readMeters m h
  case monitorConfig m => cases he; exact k.monitorConfigCommand m h
  case eventConfig m => cases he; exact k.eventConfigCommand m h
  case eventAck m => cases he; exact k.eventAck m h
  case readAlarms m => cases he; exact k.readAlarms m h
  case clearAlarms m => cases he; exact k.clearAlarmsCommand m h
  case alarmConfig m => cases he; exact k.alarmConfig m h

/-- Every step keeps it. -/
theorem step_keeps {t : State} (h : P s) (he : step s = .next t) : P t := by
  unfold step at he
  split at he
  · exact k.exec_keeps (k.queue _ _ h) he
  · cases he; exact h

end KeptByBlocks

end Sys2Proof.Machine
end

