-- ==== Sys2Proof/Laws/Events.lean ====
section
/-! SUPPORT. The event queue's operations: the number a record takes, its place in report order, and all that raising an event
can do. -/

namespace Sys2Proof.Machine

/-- The search for a free number stops at the first one the queue does not hold, `k` numbers on. -/
theorem freeSequence_spec (held : List Word16) (n : Nat) (c : Word16) :
    ∃ k ≤ n, freeSequence held n c = c + BitVec.ofNat 16 k ∧ (∀ j < k, c + BitVec.ofNat 16 j ∈ held) ∧
      (k < n → c + BitVec.ofNat 16 k ∉ held) := by
  induction n generalizing c with
  | zero => exact ⟨0, le_refl _, by simp [freeSequence], by simp, by simp⟩
  | succ n ih =>
    unfold freeSequence
    split
    · next hc =>
      obtain ⟨k, hk, heq, hall, hnot⟩ := ih (c + 1#16)
      have shift : ∀ j, c + 1#16 + BitVec.ofNat 16 j = c + BitVec.ofNat 16 (j + 1) := fun j => by
        rw [BitVec.add_assoc, ← BitVec.ofNat_add, Nat.add_comm]
      refine ⟨k + 1, by omega, by rw [heq, shift], ?_, ?_⟩
      · intro j hj
        cases j with
        | zero => simpa using hc
        | succ j => rw [← shift]; exact hall j (by omega)
      · intro h
        rw [← shift]
        exact hnot (by omega)
    · next hc => exact ⟨0, by omega, by simp, by simp, by simpa using hc⟩

/-- Short of the whole number space, the search finds a number that is free. -/
theorem freeSequence_fresh (held : List Word16) (h : held.length < 65536) (c : Word16) :
    freeSequence held held.length c ∉ held := by
  obtain ⟨k, hk, heq, hall, hnot⟩ := freeSequence_spec held held.length c
  rw [heq]
  rcases Nat.lt_or_ge k held.length with hlt | hge
  · exact hnot hlt
  · intro hmem
    have sub : ∀ j < held.length + 1, c + BitVec.ofNat 16 j ∈ held := fun j hj => by
      rcases Nat.lt_or_ge j k with hj' | hj'
      · exact hall j hj'
      · obtain rfl : j = k := by omega
        exact hmem
    have inj : ((List.range (held.length + 1)).map fun j => c + BitVec.ofNat 16 j).Nodup := by
      refine List.Nodup.map_on ?_ List.nodup_range
      intro x hx y hy hxy
      have := congrArg BitVec.toNat (BitVec.add_right_inj c |>.mp hxy)
      simp only [List.mem_range] at hx hy
      simp only [BitVec.toNat_ofNat] at this
      omega
    have := (inj.subperm (l₂ := held) fun x hx => by
      obtain ⟨j, hj, rfl⟩ := List.mem_map.mp hx
      exact sub j (List.mem_range.mp hj)).length_le
    simp at this

/-- A record joins the queue and none leaves it. -/
theorem insertRecord_perm (r : EventRecord) (q : List EventRecord) : (insertRecord r q).Perm (r :: q) := by
  unfold insertRecord
  refine List.perm_middle.trans ?_
  rw [List.takeWhile_append_dropWhile]

/-- A record is placed in report order. -/
theorem insertRecord_pairwise {r : EventRecord} {q : List EventRecord}
    (h : q.Pairwise fun a b => b.priority ≤ a.priority) :
    (insertRecord r q).Pairwise fun a b => b.priority ≤ a.priority := by
  induction q with
  | nil => simp [insertRecord]
  | cons x q ih =>
    obtain ⟨hx, hq⟩ := List.pairwise_cons.mp h
    by_cases hp : r.priority ≤ x.priority
    · have : insertRecord r (x :: q) = x :: insertRecord r q := by simp [insertRecord, hp]
      rw [this, List.pairwise_cons]
      refine ⟨fun y hy => ?_, ih hq⟩
      rcases List.mem_cons.mp ((insertRecord_perm r q).mem_iff.mp hy) with rfl | hy
      · exact hp
      · exact hx y hy
    · have : insertRecord r (x :: q) = r :: x :: q := by simp [insertRecord, hp]
      rw [this, List.pairwise_cons]
      refine ⟨fun y hy => ?_, h⟩
      rcases List.mem_cons.mp hy with rfl | hy
      · exact le_of_not_ge hp
      · exact (hx y hy).trans (le_of_not_ge hp)

namespace EventUnit

/-- All that raising an event can do. -/
theorem raise_cases (u : EventUnit) (stamp : Word16) (kind : EventKind) (subject : SlotIdx) (detail : Word16) :
    (u.config[kind.index].enabled = false ∧ u.raise stamp kind subject detail = u) ∨
      (u.config[kind.index].enabled = true ∧ u.queue.length < 32 ∧
        u.raise stamp kind subject detail = u.enter stamp kind subject detail) ∨
      (u.config[kind.index].enabled = true ∧ 32 ≤ u.queue.length ∧ u.raise stamp kind subject detail = u.lose) := by
  unfold raise offer Config.eventDepth
  split
  · next h =>
    split
    · next hq => exact .inr (.inl ⟨h, hq, rfl⟩)
    · next hq => exact .inr (.inr ⟨h, Nat.le_of_not_lt hq, rfl⟩)
  · next h => exact .inl ⟨by simpa using h, rfl⟩

variable (u : EventUnit) (stamp : Word16) (kind : EventKind) (subject : SlotIdx) (detail : Word16)

@[simp] theorem raise_config : (u.raise stamp kind subject detail).config = u.config := by
  rcases u.raise_cases stamp kind subject detail with ⟨-, h⟩ | ⟨-, -, h⟩ | ⟨-, -, h⟩ <;> rw [h] <;> rfl

@[simp] theorem raise_path : (u.raise stamp kind subject detail).path = u.path := by
  rcases u.raise_cases stamp kind subject detail with ⟨-, h⟩ | ⟨-, -, h⟩ | ⟨-, -, h⟩ <;> rw [h] <;> rfl

@[simp] theorem raise_pinMask : (u.raise stamp kind subject detail).pinMask = u.pinMask := by
  rcases u.raise_cases stamp kind subject detail with ⟨-, h⟩ | ⟨-, -, h⟩ | ⟨-, -, h⟩ <;> rw [h] <;> rfl

@[simp] theorem raise_cause : (u.raise stamp kind subject detail).cause = u.cause := by
  rcases u.raise_cases stamp kind subject detail with ⟨-, h⟩ | ⟨-, -, h⟩ | ⟨-, -, h⟩ <;> rw [h] <;> rfl

theorem latch_latched (n : Fin 17) (k : Nat) :
    (EventUnit.latch n u).latched.getLsbD k = (u.latched.getLsbD k || decide (k = n.val)) := by
  by_cases h : k = n.val
  · subst h; simp [latch, alarmBit, n.isLt]
  · have : n.val ≠ k := fun e => h e.symm
    simp [latch, alarmBit, h, this]

/-- An alarm that is latched stays latched while events are raised. -/
theorem raise_latched {k : Nat} (h : u.latched.getLsbD k = true) :
    (u.raise stamp kind subject detail).latched.getLsbD k = true := by
  rcases u.raise_cases stamp kind subject detail with ⟨-, e⟩ | ⟨-, -, e⟩ | ⟨-, -, e⟩ <;> rw [e]
  · exact h
  · exact h
  · unfold lose
    rw [latch_latched]
    simp [h]

end EventUnit

end Sys2Proof.Machine
end

