-- ==== Sys2Proof/Laws/PerInstr.lean ====
section
/-! SUPPORT. What a well-formed row says of the message it carries, constructor by constructor. -/

namespace Sys2Proof.Laws

open Machine

/-- The management message a row carries. -/
def carried : Instr → Option Message
  | .powerOnReset _ => none
  | .pinReset _ => none
  | .softResetTakesEffect => none
  | .boundary _ => none
  | .windowComplete _ => none
  | .missTimeout _ _ => none
  | .candidate _ _ _ _ => none
  | .confirmingFrame _ _ _ => none
  | .arrival _ _ _ => none
  | .crcErrorFrame _ _ _ => none
  | .missingMarker _ _ _ => none
  | .reassemblyTimeout _ => none
  | .commitTakesEffect => none
  | .phaseEnd _ => none
  | .revert _ => none
  | .levelHoldReached _ => none
  | .messageFullySent _ => none
  | .reportTimeout _ => none
  | .unrecognisedCode m => some m
  | .identify m => some m
  | .softReset m => some m
  | .setControl m => some m
  | .portConfig m => some m
  | .portRestart m => some m
  | .readPort m => some m
  | .timingConfig m => some m
  | .readTiming m => some m
  | .stageEntry m => some m
  | .copyActive m => some m
  | .readEntry m => some m
  | .commit m => some m
  | .cancelCommit m => some m
  | .readCommit m => some m
  | .writeProfile m => some m
  | .readProfile m => some m
  | .readSlot m => some m
  | .switch m => some m
  | .egressConfig m => some m
  | .readMeters m => some m
  | .monitorConfig m => some m
  | .eventConfig m => some m
  | .eventAck m => some m
  | .readAlarms m => some m
  | .clearAlarms m => some m
  | .alarmConfig m => some m

/-- R14, R151: the message of a well-formed row has 3 to 64 bytes, counted by its length byte, and its code is in Table 7
exactly when the row is a command of Table 7. -/
def CommandBounds.Statement (i : Instr) : Prop :=
  i.wellFormed = true → ∀ m, carried i = some m →
    3 ≤ m.bytes.length ∧ m.bytes.length ≤ 64 ∧ messageLength m = m.bytes.length ∧
      (messageCode m ∈ commandCodes ↔ i ≠ .unrecognisedCode m)

theorem wellFormed_bounds {m : Message} (h : m.wellFormed = true) :
    3 ≤ m.bytes.length ∧ m.bytes.length ≤ 64 ∧ messageLength m = m.bytes.length := by
  simpa [Message.wellFormed, and_assoc] using h

/-- A command row of a code of Table 7. -/
theorem command_bounds {i : Instr} {m : Message} {code : Byte} (hi : i.wellFormed = m.isCommand code)
    (hc : code ∈ commandCodes) (hn : i ≠ .unrecognisedCode m) (h : carried i = some m) : CommandBounds.Statement i := by
  intro hw m' hm
  obtain rfl : m = m' := Option.some.inj (h.symm.trans hm)
  rw [hi] at hw
  simp only [Message.isCommand, Bool.and_eq_true, decide_eq_true_eq] at hw
  obtain ⟨h1, h2, h3⟩ := wellFormed_bounds hw.1
  exact ⟨h1, h2, h3, by simp [hw.2, hc, hn]⟩

/-- A row that carries no message. -/
theorem no_message {i : Instr} (h : carried i = none) : CommandBounds.Statement i := by
  intro _ m hm
  rw [h] at hm
  cases hm

namespace CommandBounds

theorem powerOnReset (ctlsel : BitVec 2) : Statement (.powerOnReset ctlsel) := no_message rfl

theorem pinReset (ctlsel : BitVec 2) : Statement (.pinReset ctlsel) := no_message rfl

theorem softResetTakesEffect : Statement .softResetTakesEffect := no_message rfl

theorem boundary (part : BoundaryPart) : Statement (.boundary part) := no_message rfl

theorem windowComplete (p : PortIdx) : Statement (.windowComplete p) := no_message rfl

theorem missTimeout (p : PortIdx) (n : Nat) : Statement (.missTimeout p n) := no_message rfl

theorem candidate (p : PortIdx) (n k : Nat) (f : LaneFrame) : Statement (.candidate p n k f) := no_message rfl

theorem confirmingFrame (p : PortIdx) (n : Nat) (f : LaneFrame) : Statement (.confirmingFrame p n f) := no_message rfl

theorem arrival (p : PortIdx) (n : Nat) (f : LaneFrame) : Statement (.arrival p n f) := no_message rfl

theorem crcErrorFrame (p : PortIdx) (n : Nat) (f : LaneFrame) : Statement (.crcErrorFrame p n f) := no_message rfl

theorem missingMarker (p : PortIdx) (n : Nat) (f : LaneFrame) : Statement (.missingMarker p n f) := no_message rfl

theorem reassemblyTimeout (p : PortIdx) : Statement (.reassemblyTimeout p) := no_message rfl

theorem commitTakesEffect : Statement .commitTakesEffect := no_message rfl

theorem phaseEnd (i : SlotIdx) : Statement (.phaseEnd i) := no_message rfl

theorem revert (i : SlotIdx) : Statement (.revert i) := no_message rfl

theorem levelHoldReached (n : Fin 4) : Statement (.levelHoldReached n) := no_message rfl

theorem messageFullySent (e : PortIdx) : Statement (.messageFullySent e) := no_message rfl

theorem reportTimeout (n : Word16) : Statement (.reportTimeout n) := no_message rfl

theorem unrecognisedCode (m : Message) : Statement (.unrecognisedCode m) := by
  intro hw m' hm
  obtain rfl : m = m' := Option.some.inj hm
  simp only [Instr.wellFormed, Bool.and_eq_true, Bool.not_eq_true', List.contains_eq_mem, decide_eq_false_iff_not] at hw
  obtain ⟨h1, h2, h3⟩ := wellFormed_bounds hw.1
  exact ⟨h1, h2, h3, by simp [hw.2]⟩

theorem identify (m : Message) : Statement (.identify m) :=
  command_bounds rfl (by decide) (by simp) rfl

theorem softReset (m : Message) : Statement (.softReset m) :=
  command_bounds rfl (by decide) (by simp) rfl

theorem setControl (m : Message) : Statement (.setControl m) :=
  command_bounds rfl (by decide) (by simp) rfl

theorem portConfig (m : Message) : Statement (.portConfig m) :=
  command_bounds rfl (by decide) (by simp) rfl

theorem portRestart (m : Message) : Statement (.portRestart m) :=
  command_bounds rfl (by decide) (by simp) rfl

theorem readPort (m : Message) : Statement (.readPort m) :=
  command_bounds rfl (by decide) (by simp) rfl

theorem timingConfig (m : Message) : Statement (.timingConfig m) :=
  command_bounds rfl (by decide) (by simp) rfl

theorem readTiming (m : Message) : Statement (.readTiming m) :=
  command_bounds rfl (by decide) (by simp) rfl

theorem stageEntry (m : Message) : Statement (.stageEntry m) :=
  command_bounds rfl (by decide) (by simp) rfl

theorem copyActive (m : Message) : Statement (.copyActive m) :=
  command_bounds rfl (by decide) (by simp) rfl

theorem readEntry (m : Message) : Statement (.readEntry m) :=
  command_bounds rfl (by decide) (by simp) rfl

theorem commit (m : Message) : Statement (.commit m) :=
  command_bounds rfl (by decide) (by simp) rfl

theorem cancelCommit (m : Message) : Statement (.cancelCommit m) :=
  command_bounds rfl (by decide) (by simp) rfl

theorem readCommit (m : Message) : Statement (.readCommit m) :=
  command_bounds rfl (by decide) (by simp) rfl

theorem writeProfile (m : Message) : Statement (.writeProfile m) :=
  command_bounds rfl (by decide) (by simp) rfl

theorem readProfile (m : Message) : Statement (.readProfile m) :=
  command_bounds rfl (by decide) (by simp) rfl

theorem readSlot (m : Message) : Statement (.readSlot m) :=
  command_bounds rfl (by decide) (by simp) rfl

theorem switch (m : Message) : Statement (.switch m) :=
  command_bounds rfl (by decide) (by simp) rfl

theorem egressConfig (m : Message) : Statement (.egressConfig m) :=
  command_bounds rfl (by decide) (by simp) rfl

theorem readMeters (m : Message) : Statement (.readMeters m) :=
  command_bounds rfl (by decide) (by simp) rfl

theorem monitorConfig (m : Message) : Statement (.monitorConfig m) :=
  command_bounds rfl (by decide) (by simp) rfl

theorem eventConfig (m : Message) : Statement (.eventConfig m) :=
  command_bounds rfl (by decide) (by simp) rfl

theorem eventAck (m : Message) : Statement (.eventAck m) :=
  command_bounds rfl (by decide) (by simp) rfl

theorem readAlarms (m : Message) : Statement (.readAlarms m) :=
  command_bounds rfl (by decide) (by simp) rfl

theorem clearAlarms (m : Message) : Statement (.clearAlarms m) :=
  command_bounds rfl (by decide) (by simp) rfl

theorem alarmConfig (m : Message) : Statement (.alarmConfig m) :=
  command_bounds rfl (by decide) (by simp) rfl

end CommandBounds

end Sys2Proof.Laws
end

