-- ==== Sys2Proof/Tests/Slice0.lean ====
section
/-! SUPPORT. Small tests: ill-formed rows, the manual's worked examples and tables, and, for each statement with hypotheses, a
state and operands that meet them. -/

namespace Sys2Proof.Tests

open Machine

/-! ### Small operands -/

/-- A message from a port: its length byte, its code, the tag 0xA5, and its arguments. -/
def cmd (p : PortIdx) (code : Byte) (args : List Byte) : Message :=
  { source := p, bytes := [BitVec.ofNat 8 (3 + args.length), code, 0xA5#8] ++ args }

/-- A frame with its marker, a zero body, and the given check bytes. -/
def zeroFrame (high low : Byte) : LaneFrame :=
  Vector.ofFn fun i => if i.val = 0 then 0xB4#8 else if i.val = 1 then 0x2D#8 else if i.val = 57 then high else
    if i.val = 58 then low else 0#8

/-- A frame of zeros, without the marker. -/
def noMarker : LaneFrame := Vector.replicate 59 0#8

/-- A valid frame with an idle service field. -/
def goodFrame (sequence : Byte) : LaneFrame :=
  buildFrame sequence 0xFFFF#16 idleField (Vector.replicate 16 0x123456#24)

/-! ### WellFormed refuses an ill-formed row, check by check -/

theorem test_illformed_short_message : (Instr.identify ⟨0, [2#8, 0x01#8]⟩).wellFormed = false := by decide

theorem test_illformed_long_message :
    (Instr.identify ⟨0, [65#8, 0x01#8, 0#8] ++ List.replicate 62 0#8⟩).wellFormed = false := by decide

theorem test_illformed_length_byte : (Instr.identify ⟨0, [4#8, 0x01#8, 0#8]⟩).wellFormed = false := by decide

theorem test_illformed_code : (Instr.identify (cmd 0 0x19#8 [])).wellFormed = false := by decide

theorem test_illformed_known_code : (Instr.unrecognisedCode (cmd 0 0x54#8 [])).wellFormed = false := by decide

theorem test_illformed_candidate : (Instr.candidate 0 1 0 noMarker).wellFormed = false := by decide

theorem test_illformed_arrival : (Instr.arrival 0 1 (zeroFrame 0#8 0#8)).wellFormed = false := by decide +kernel

theorem test_illformed_crc_error : (Instr.crcErrorFrame 0 1 (goodFrame 7#8)).wellFormed = false := by decide +kernel

theorem test_illformed_missing : (Instr.missingMarker 0 1 (goodFrame 7#8)).wellFormed = false := by decide +kernel

theorem test_wellformed_rows :
    (Instr.identify (cmd 3 0x01#8 [])).wellFormed = true ∧ (Instr.unrecognisedCode (cmd 0 0x55#8 [])).wellFormed = true ∧
      (Instr.arrival 0 1 (goodFrame 7#8)).wellFormed = true ∧
      (Instr.crcErrorFrame 0 1 (zeroFrame 0#8 0#8)).wellFormed = true := by decide +kernel

/-! ### The manual's worked examples and tables -/

/-- The note below R2. -/
theorem test_crc_check_value :
    crc [0x31#8, 0x32#8, 0x33#8, 0x34#8, 0x35#8, 0x36#8, 0x37#8, 0x38#8, 0x39#8] = 0x29B1#16 := by decide +kernel

/-- 00_scope.md: E1.03 has index 19, and I2.07 is slot 7 of IP2. -/
theorem test_slot_index : slotIndex 1 3 = 19 ∧ laneOf 39 = 2 ∧ slotInLane 39 = 7 := by decide

/-- R12, Table 5: the tags of a FIRST with index 0, a LAST with index 2 and an ONLY. -/
theorem test_tags : makeTag 1 0 = 0x20#8 ∧ makeTag 3 2 = 0x62#8 ∧ makeTag 4 0 = 0x80#8 := by decide

/-- Figure 3: a seven-byte message in three frames. -/
theorem test_seven_byte_message :
    fragmentCount 7 = 3 ∧ (fragmentOf [1#8, 2#8, 3#8, 4#8, 5#8, 6#8, 7#8] 1).tag = makeTag 2 1 ∧
      (fragmentOf [1#8, 2#8, 3#8, 4#8, 5#8, 6#8, 7#8] 2) = ⟨makeTag 3 2, #v[7#8, 0#8, 0#8]⟩ := by decide

/-- The example of 2.4: intervals 512, 513, 512 and 514 average to 513 with D = 4 and with D = 2. -/
theorem test_average :
    ({ resetPort with history := [512#16, 513#16, 512#16, 514#16] } : Port).average = some 513 ∧
      ({ resetPort with history := [512#16, 513#16, 512#16, 514#16], depthInForce := 1#2 } : Port).depth = 2 ∧
      ({ resetPort with history := [512#16, 513#16, 512#16, 514#16], depthInForce := 1#2 } : Port).average = some 513 ∧
      ({ resetPort with history := [400#16, 400#16, 512#16, 514#16], depthInForce := 1#2 } : Port).average = some 513 := by
  decide

/-- R44: the settings of a power-on reset are W, T, D, M and C of 256, 2, 4, 3 and 3. -/
theorem test_reset_settings :
    resetPort.window = 256 ∧ resetPort.tolerance = 2 ∧ resetPort.depth = 4 ∧ resetPort.missFactor = 3 ∧
      resetPort.primeCentre = 3 := by decide

/-- R68: order is no difference, gain is. -/
theorem test_list_equality :
    listsEqual [⟨2, 16384#16, false⟩, ⟨3, 8192#16, true⟩] [⟨3, 8192#16, true⟩, ⟨2, 16384#16, false⟩] = true ∧
      listsEqual [⟨2, 16384#16, false⟩] [⟨2, 16383#16, false⟩] = false ∧ listsEqual [] [] = true := by decide

/-- The table below R83. -/
theorem test_commit_distances :
    effectivePeriod true 1001#16 1000#16 = some 1001#16 ∧ effectivePeriod true 33767#16 1000#16 = some 33767#16 ∧
      effectivePeriod true 33768#16 1000#16 = none ∧ effectivePeriod true 1000#16 1000#16 = none ∧
      effectivePeriod true 20#16 65500#16 = some 20#16 ∧ effectivePeriod true 65400#16 65500#16 = none := by decide

/-- Figure 9: a transition under profile 5. -/
theorem test_transition :
    let p : Profile := ⟨3, 1, 2, 2⟩
    let a : MixList := [⟨0, 16384#16, false⟩]
    let b : MixList := [⟨1, 16384#16, false⟩]
    let c0 : SlotContext := (⟨.steady, a, a, 4096, 0, 0, 0⟩ : SlotContext).request b 5 p
    let c := (List.range 9).map fun n => (fun x => SlotContext.step x p)^[n + 1] c0
    c.map (·.level) = [2730, 1365, 0, 0, 2048, 4096, 4096, 4096, 4096] ∧
      c.map (·.phase) = [.fadeOut, .fadeOut, .fadeOut, .gap, .fadeIn, .fadeIn, .settle, .settle, .steady] ∧
      c.map (·.sounding) = [a, a, a, a, b, b, b, b, b] := by decide

/-- Figure 10: the reversal of a fade-in. -/
theorem test_reversal :
    let p : Profile := ⟨6, 0, 4, 0⟩
    let b : MixList := [⟨1, 16384#16, false⟩]
    let d := (SlotContext.request ⟨.fadeIn, b, b, 2560, 8, 5, 1⟩ [⟨2, 16384#16, false⟩] 2 p).step p
    d.phase = .fadeOut ∧ d.phasePosition = 3 ∧ d.phaseLength = 6 ∧ d.level = 2048 := by decide

/-- The example of 8.1: the exact values of Table 29 at level 4,096 and 2,730, rounded down, and Figure 13's saturation. -/
theorem test_mix_values :
    ((1000001 * 16384 - 300001 * 8192 : Int) * 4096) / Config.mixDivisor = 850000 ∧
      ((1000001 * 16384 - 300001 * 8192 : Int) * 2730) / Config.mixDivisor = 566528 ∧
      termProduct ⟨50, 8192#16, true⟩ 300001 = -2457608192 ∧ saturate 16777214 = 8388607 ∧ clips 16777214 = true ∧
      clips 8388607 = false := by decide

/-- Figure 14: a monitor in BELOW mode. -/
theorem test_silence_monitor :
    let m : Monitor := { resetMonitor with enabled := true, mode := .below, threshold := 256, hold := 3 }
    let after := fun l : List Nat => l.foldl Monitor.evaluate m
    (after [5000, 100, 50]).runCount = 2 ∧ (after [5000, 100, 50, 300, 0, 0]).state = .under ∧
      (after [5000, 100, 50, 300, 0, 0, 0]).state = .over ∧ (after [5000, 100, 50, 300, 0, 0, 0, 0, 256]).state = .under := by
  decide

/-- R17, Table 9: the report of the RESET_DONE record of a pin reset. -/
theorem test_report_bytes :
    reportBytes (resetDoneRecord 2#16) = [12#8, 0x7E#8, 0#8, 0#8, 0#8, 1#8, 3#8, 0#8, 0#8, 0#8, 0#8, 2#8] := by decide

/-- R71: the bytes of a STAGE_ENTRY for slot 63, with one primary term and one backup term. -/
theorem test_stage_entry_arguments :
    argRecord (cmd 0 0x20#8 [63#8, 1#8, 1#8, 7#8, 6#8, 1#8, 0x01#8, 0x02#8, 5#8, 0x40#8, 0#8, 0#8, 9#8, 0x20#8, 0#8, 1#8]) =
      some (63, ⟨[⟨5, 16384#16, false⟩], some [⟨9, 8192#16, true⟩], 7, 6, .revert, 0x0102#16⟩) := by decide

/-- R169: a record is placed behind every record of its priority or higher. -/
theorem test_report_order :
    let r (n : Word16) (p : Fin 4) : EventRecord := { resetDoneRecord 1#16 with sequence := n, priority := p }
    (insertRecord (r 9#16 2) [r 1#16 3, r 2#16 2, r 3#16 1]).map (·.sequence) = [1#16, 2#16, 9#16, 3#16] := by decide

/-- R170: a number that a record of the queue holds is skipped. -/
theorem test_number_skipped : freeSequence [0#16, 1#16, 65535#16] 3 65535#16 = 2#16 := by decide

/-- R32, R40: a new D and M come into force with the next tick. -/
theorem test_new_depth_waits_for_the_tick :
    let p := resetPort.reconfigure { resetSettings with depthCode := 0#2, missCode := 3#2 }
    p.depth = 4 ∧ p.missFactor = 3 ∧ p.nextTick.depth = 1 ∧ p.nextTick.missFactor = 8 := by decide

/-- R94: where a phase has been entered under the profile, the phases of the boundary keep to the old lengths. -/
theorem test_entered_profile_latches_old :
    (∀ i : Fin 8, (writeProfile State.reset i ⟨1, 2, 3, 4⟩).latching[i] = ⟨1, 2, 3, 4⟩) ∧
      ∀ i : Fin 8, let s := writeProfile (State.reset.markEntered i true) i ⟨1, 2, 3, 4⟩
        s.latching[i] = zeroProfile ∧ s.profiles[i] = ⟨1, 2, 3, 4⟩ := by decide

/-- R59, R62, R145: a soft reset leaves a frame picked before it, which the mixer reads as silence, and nothing else of the
store. -/
theorem test_soft_reset_after_the_pick :
    let r : FrameRecord := { silentFrame with sequence := 7#8 }
    let after := (⟨[r], r, .picked, r, false, false⟩ : ElasticStore).softReset
    after = ⟨[], r, .picked, silentFrame, false, true⟩ ∧ after.heard = silentFrame ∧
      (⟨[r], r, .picked, r, true, false⟩ : ElasticStore).softReset =
        ⟨[], silentFrame, .silent, silentFrame, true, false⟩ := by decide

/-- R66: the SLIP events of the stores a list reads do not follow the order of its terms. -/
theorem test_term_order_has_no_effect :
    let s : State := { State.reset with
      ports := Vector.replicate 4 { resetPort with
        state := .locked, store := { resetPort.store with pickDue := true } } }
    let slips := fun l : List SlotIdx =>
      (s.ensurePicks (l.map fun i => ⟨i, Config.unityGain, false⟩)).events.queue.map fun e => (e.kind, e.subject)
    slips [40, 3] = slips [3, 40] ∧ (.slip, 2) ∈ slips [40, 3] := by decide

/-- R154: the arbiter passes over a command whose reply has no room. -/
theorem test_arbiter :
    takeRoomy (fun m => m.source ≠ 2) [cmd 2 0x01#8 [], cmd 2 0x19#8 [], cmd 1 0x01#8 []] =
      some (cmd 1 0x01#8 [], [cmd 2 0x01#8 [], cmd 2 0x19#8 []]) := by decide

/-! ### Witnesses: a state and operands that meet the hypotheses of each statement -/

/-- A boundary at which the processor is to take `m`, the only command. -/
def ready (m : Message) : State :=
  { State.reset with
    timing := { resetTiming with atBoundary := true, beforeFirst := false, remaining := 512 }
    channel := { queue := [m], processor := .executing, turn := true, control := 0 } }

theorem turn_of {s : State} {m : Message} (b : s.timing.atBoundary = true) (c : s.channel = ⟨[m], .executing, true, 0⟩)
    (e : s.egress = State.reset.egress) : Turn s [] m [] where
  boundary := b
  turn := by rw [c]
  executing := by rw [c]
  queue := by rw [c]; rfl
  heldBack := by simp
  room := by rw [e]; simp [State.reset, State.afterReset, resetEgress]

theorem ready_turn (m : Message) : Turn (ready m) [] m [] := turn_of rfl rfl rfl

theorem test_witness_StepRunsTheFrontRow :
    { State.reset with pending := [.commitTakesEffect] }.pending = .commitTakesEffect :: [] ∧ State.reset.pending = [] := by
  decide

/-- HOLDOVER holds, and the timing fix is due or past. -/
theorem test_witness_ArgumentlessReadsAnswer :
    ∀ code ∈ [0x01#8, 0x19#8, 0x2A#8, 0x52#8], ∀ due : Bool, ∃ (s : State) (m : Message) (c : BitVec 17),
      Turn s [] m [] ∧ messageLength m = 3 ∧ ConditionBits s c ∧ messageCode m = code ∧ s.timing.fixDue = due ∧ c ≠ 0#17 := by
  intro code hc due
  refine ⟨{ ready (cmd 3 code []) with
    timing := { resetTiming with atBoundary := true, source := some 1, state := .holdover, fixDue := due } }, cmd 3 code [],
    BitVec.twoPow 17 12, turn_of rfl rfl rfl, rfl, ?_, rfl, rfl, by decide⟩
  intro n
  simp [ready, State.reset, State.afterReset, resetPort, resetSlot, resetProtection, eq_comm]

theorem test_witness_TableReadsAnswer :
    (∃ m : Message, Turn (ready m) [] m [] ∧ messageCode m = 0x31#8 ∧ messageLength m = 4 ∧ argByte m 3 = (7 : Fin 8).val) ∧
      ∃ m : Message, Turn (ready m) [] m [] ∧ messageCode m = 0x22#8 ∧ messageLength m = 5 ∧
        argByte m 3 = (63 : SlotIdx).val ∧ argByte m 4 = 1 :=
  ⟨⟨cmd 2 0x31#8 [7#8], ready_turn _, by decide⟩, ⟨cmd 2 0x22#8 [63#8, 1#8], ready_turn _, by decide⟩⟩

theorem test_witness_ReadPortAndMetersAnswerAndClear :
    ∀ code ∈ [0x12#8, 0x41#8], ∀ clear : Bool, ∃ m : Message, Turn (ready m) [] m [] ∧ messageCode m = code ∧
      m.bytes.length = 5 ∧ messageLength m = 5 ∧ argByte m 3 = (3 : PortIdx).val ∧
      argByte m 4 = (if clear then 1 else 0) ∧ (clear = true → m.source = (ready m).channel.control) := by
  intro code hc clear
  refine ⟨cmd 0 code [3#8, if clear then 1#8 else 0#8], ready_turn _, ?_⟩
  simp only [List.mem_cons, List.not_mem_nil, or_false] at hc
  rcases hc with rfl | rfl <;> cases clear <;> decide

theorem test_witness_ReadSlotAnswersAndClears :
    ∀ clear : Bool, ∃ m : Message, Turn (ready m) [] m [] ∧ messageCode m = 0x32#8 ∧ m.bytes.length = 5 ∧
      messageLength m = 5 ∧ argByte m 3 = (63 : SlotIdx).val ∧ argByte m 4 = (if clear then 1 else 0) ∧
      (clear = true → m.source = (ready m).channel.control) := fun clear =>
  ⟨cmd 0 0x32#8 [63#8, if clear then 1#8 else 0#8], ready_turn _, by cases clear <;> decide⟩

theorem test_witness_ConfigurationWritesTakeEffect :
    (∀ due : Bool, ∃ (s : State) (m : Message), Turn s [] m [] ∧ m.source = s.channel.control ∧ messageCode m = 0x18#8 ∧
        messageLength m = 4 ∧ argByte m 3 = 4 ∧ s.timing.fixDue = due) ∧
      (∀ old : Bool, ∃ (s : State) (m : Message), Turn s [] m [] ∧ m.source = s.channel.control ∧ messageCode m = 0x30#8 ∧
        messageLength m = 10 ∧ argByte m 3 = (7 : Fin 8).val ∧ (argWord m 4).toNat = 1023 ∧ argByte m 6 = 255 ∧
        (argWord m 7).toNat = 1023 ∧ argByte m 9 = 255 ∧ s.entered[(7 : Fin 8)] = old) ∧
      (∃ m : Message, Turn (ready m) [] m [] ∧ m.source = (ready m).channel.control ∧ messageCode m = 0x50#8 ∧
        messageLength m = 6 ∧ argByte m 3 = 19 ∧ argByte m 4 = 0 ∧ argByte m 5 = 3) ∧
      (∃ m : Message, Turn (ready m) [] m [] ∧ m.source = (ready m).channel.control ∧ messageCode m = 0x42#8 ∧
        messageLength m = 12 ∧ argByte m 3 = 3 ∧ argByte m 4 = 1 ∧ argByte m 5 = 63 ∧ argByte m 6 = 1 ∧
        (argTriple m 7).toNat ≤ 8388608 ∧ argWord m 10 ≠ 0#16) ∧
      ∃ m : Message, Turn (ready m) [] m [] ∧ m.source = (ready m).channel.control ∧ messageCode m = 0x54#8 ∧
        messageLength m = 6 ∧ (argTriple m 3).toNat < 131072 :=
  ⟨fun due => ⟨{ ready (cmd 0 0x18#8 [4#8]) with timing := { resetTiming with atBoundary := true, fixDue := due } }, _,
      turn_of rfl rfl rfl, rfl, by decide, by decide, by decide, rfl⟩,
   fun old => ⟨{ ready (cmd 0 0x30#8 [7#8, 3#8, 255#8, 255#8, 3#8, 255#8, 255#8]) with entered := Vector.replicate 8 old }, _,
      turn_of rfl rfl rfl, by cases old <;> decide⟩,
   ⟨cmd 0 0x50#8 [19#8, 0#8, 3#8], ready_turn _, by decide⟩,
   ⟨cmd 0 0x42#8 [3#8, 1#8, 63#8, 1#8, 128#8, 0#8, 0#8, 0#8, 1#8], ready_turn _, by decide⟩,
   ⟨cmd 0 0x54#8 [1#8, 255#8, 255#8], ready_turn _, by decide⟩⟩

theorem test_witness_PortRestartStartsAgain :
    ∃ m : Message, Turn (ready m) [] m [] ∧ m.source = (ready m).channel.control ∧ messageCode m = 0x11#8 ∧
      messageLength m = 4 ∧ argByte m 3 = 3 := ⟨cmd 0 0x11#8 [3#8], ready_turn _, by decide⟩

/-- A disable of IP3, and an enable that leaves IP0 enabled with W and T at their largest. -/
theorem test_witness_PortConfigWritesAndActs :
    (∃ m : Message, Turn (ready m) [] m [] ∧ m.source = (ready m).channel.control ∧ messageCode m = 0x10#8 ∧
        messageLength m = 10 ∧ argByte m 3 = 3 ∧ argByte m 4 = 0 ∧ argByte m 5 = 3 ∧ argByte m 6 = 15 ∧ argByte m 7 = 3 ∧
        argByte m 8 = 3 ∧ argByte m 9 = 7 ∧ (3 : PortIdx) ≠ (ready m).channel.control) ∧
      ∃ m : Message, Turn (ready m) [] m [] ∧ m.source = (ready m).channel.control ∧ messageCode m = 0x10#8 ∧
        messageLength m = 10 ∧ argByte m 3 = 0 ∧ argByte m 4 = 1 ∧ argByte m 5 = 3 ∧ argByte m 6 = 15 ∧ argByte m 7 = 0 ∧
        argByte m 8 = 0 ∧ argByte m 9 = 1 :=
  ⟨⟨cmd 0 0x10#8 [3#8, 0#8, 3#8, 15#8, 3#8, 3#8, 7#8], ready_turn _, by decide⟩,
   ⟨cmd 0 0x10#8 [0#8, 1#8, 3#8, 15#8, 0#8, 0#8, 1#8], ready_turn _, by decide⟩⟩

theorem test_witness_SetControlMovesTheRole :
    ∃ m : Message, Turn (ready m) [] m [] ∧ m.source = (ready m).channel.control ∧ messageCode m = 0x03#8 ∧
      messageLength m = 4 ∧ argByte m 3 = (3 : PortIdx).val ∧ (ready m).ports[(3 : PortIdx)].enabled = true ∧
      (ready m).egress[(3 : PortIdx)].enabled = true := ⟨cmd 0 0x03#8 [3#8], ready_turn _, by decide⟩

theorem test_witness_SoftResetHaltsTheProcessor :
    ∃ m : Message, Turn (ready m) [] m [] ∧ m.source = (ready m).channel.control ∧ messageCode m = 0x02#8 ∧
      messageLength m = 3 := ⟨cmd 0 0x02#8 [], ready_turn _, by decide⟩

/-- A port that is enabled already, a disabled port, an enabled one that is not the control port's, and the control port's. -/
theorem test_witness_EgressConfigEnablesAndDisables :
    ∀ x ∈ [(1, 1#8), (2, 1#8), (1, 0#8), ((0 : PortIdx), 0#8)], ∃ (s : State) (m : Message), Turn s [] m [] ∧
      m.source = s.channel.control ∧ messageCode m = 0x40#8 ∧ messageLength m = 5 ∧ argByte m 3 = x.1.val ∧
      argByte m 4 = x.2.toNat ∧ s.egress[x.1].enabled = decide (x.1 ≠ 2) := by
  intro x hx
  let m := cmd 0 0x40#8 [BitVec.ofNat 8 x.1.val, x.2]
  refine ⟨{ ready m with egress := updateAt State.reset.egress 2 fun e => { e with enabled := false } }, m,
    ⟨rfl, rfl, rfl, rfl, by simp, ?_⟩, ?_⟩
  · change (updateAt State.reset.egress 2 fun e => { e with enabled := false })[(0 : PortIdx)].responses.length < 4
    decide
  · simp only [List.mem_cons, List.not_mem_nil, or_false] at hx
    rcases hx with rfl | rfl | rfl | rfl <;> decide

/-- A record with four primary and four backup terms. -/
theorem test_witness_StageEntryReadsARecordBack :
    (⟨[⟨0, 1#16, true⟩, ⟨1, 2#16, false⟩, ⟨2, 3#16, false⟩, ⟨63, 4#16, true⟩],
      some [⟨0, 1#16, true⟩, ⟨1, 2#16, false⟩, ⟨2, 3#16, false⟩, ⟨63, 4#16, true⟩], 7, 7, .revert, 65535#16⟩ :
        RouteRecord).sound := by
  unfold RouteRecord.sound listSound
  simp

/-- An accepted edit, an edit of a lane of a pending commit, and the refused arguments at the edge of each range. -/
theorem test_witness_StageEntryWritesOrRefuses :
    (∃ m : Message, Turn (ready m) [] m [] ∧ m.source = (ready m).channel.control ∧ messageCode m = 0x20#8 ∧
        argRecord m = some (63, ⟨[], none, 7, 7, .revert, 1#16⟩) ∧ (ready m).pendingCommit = none) ∧
      (∃ (m : Message) (s : State), Turn s [] m [] ∧ m.source = s.channel.control ∧ messageCode m = 0x20#8 ∧
        argRecord m = some (63, ⟨[], none, 7, 7, .revert, 1#16⟩) ∧ s.pendingCommit = some ⟨8#4, 9#16, .scheduled⟩ ∧
        (8#4).getLsbD (63 / 16) = true) ∧
      ∀ args ∈ [[64#8, 0#8, 0#8, 0#8, 0#8, 0#8, 0#8, 0#8], [0#8, 5#8, 0#8, 0#8, 0#8, 0#8, 0#8, 0#8],
          [0#8, 0#8, 5#8, 0#8, 0#8, 0#8, 0#8, 0#8], [0#8, 1#8, 0#8, 0#8, 0#8, 0#8, 0#8, 0#8],
          [0#8, 0#8, 0#8, 8#8, 0#8, 0#8, 0#8, 0#8], [0#8, 0#8, 0#8, 0#8, 8#8, 0#8, 0#8, 0#8],
          [0#8, 0#8, 0#8, 0#8, 0#8, 2#8, 0#8, 0#8], [0#8, 1#8, 0#8, 0#8, 0#8, 0#8, 0#8, 0#8, 64#8, 0#8, 0#8, 0#8],
          [0#8, 0#8, 1#8, 0#8, 0#8, 0#8, 0#8, 0#8, 0#8, 0#8, 0#8, 2#8],
          [0#8, 2#8, 0#8, 0#8, 0#8, 0#8, 0#8, 0#8, 9#8, 0#8, 0#8, 0#8, 9#8, 0#8, 0#8, 0#8]],
        argRecord (cmd 0 0x20#8 args) = none :=
  ⟨⟨cmd 0 0x20#8 [63#8, 0#8, 0#8, 7#8, 7#8, 1#8, 0#8, 1#8], ready_turn _, by decide⟩,
   ⟨cmd 0 0x20#8 [63#8, 0#8, 0#8, 7#8, 7#8, 1#8, 0#8, 1#8],
    { ready (cmd 0 0x20#8 [63#8, 0#8, 0#8, 7#8, 7#8, 1#8, 0#8, 1#8]) with
      pendingCommit := some ⟨8#4, 9#16, .scheduled⟩ }, turn_of rfl rfl rfl, by decide⟩,
   by decide⟩

/-- An edit waits in slot 63, and a commit of lane 3 may be pending. -/
def edited (m : Message) (c : Option PendingCommit) : State :=
  { ready m with routes := updateAt State.reset.routes 63 fun e => { e with dirty := true }, pendingCommit := c }

theorem test_witness_CopyActiveWithdrawsEdits :
    ∃ m : Message, Turn (edited m none) [] m [] ∧ Turn (edited m (some ⟨8#4, 9#16, .scheduled⟩)) [] m [] ∧
      m.source = (edited m none).channel.control ∧ messageCode m = 0x21#8 ∧ messageLength m = 4 ∧
      argByte m 3 = (15#4).toNat ∧ (edited m none).pendingCommit = none ∧ (8#4).getLsbD ((63 : SlotIdx).val / 16) = true ∧
      (edited m (some ⟨8#4, 9#16, .scheduled⟩)).routes[(63 : SlotIdx)].dirty = true :=
  ⟨cmd 0 0x21#8 [15#8], turn_of rfl rfl rfl, turn_of rfl rfl rfl, by decide⟩

/-- An immediate commit, scheduled ones at the distances 1, 32,767, 0 and 32,768, and any while a commit is pending. -/
theorem test_witness_CommitsAreAcceptedRefusedAndCancelled :
    (∀ x ∈ [(0#8, 0#16), (1#8, 1#16), (1#8, 32767#16), (1#8, 0#16), (1#8, 32768#16)], ∃ m : Message,
      Turn (ready m) [] m [] ∧ m.source = (ready m).channel.control ∧ messageCode m = 0x28#8 ∧ messageLength m = 7 ∧
        argByte m 3 = x.1.toNat ∧ argByte m 4 = (15#4).toNat ∧ (ready m).pendingCommit = none ∧
        argWord m 5 - (ready m).timing.periodCounter = x.2) ∧
      (∃ m : Message, Turn (edited m (some ⟨8#4, 9#16, .scheduled⟩)) [] m [] ∧ m.source = 0 ∧ messageCode m = 0x28#8 ∧
        messageLength m = 7 ∧ argByte m 3 = 1 ∧ argByte m 4 = 1 ∧
        (edited m (some ⟨8#4, 9#16, .scheduled⟩)).pendingCommit ≠ none) ∧
      ∃ m : Message, Turn (edited m (some ⟨8#4, 9#16, .scheduled⟩)) [] m [] ∧ m.source = 0 ∧ messageCode m = 0x29#8 ∧
        messageLength m = 3 := by
  refine ⟨?_, ⟨cmd 0 0x28#8 [1#8, 1#8, 0#8, 0#8], turn_of rfl rfl rfl, by decide⟩,
    ⟨cmd 0 0x29#8 [], turn_of rfl rfl rfl, by decide⟩⟩
  intro x hx
  refine ⟨cmd 0 0x28#8 [x.1, 15#8, x.2.extractLsb' 8 8, x.2.extractLsb' 0 8], ready_turn _, ?_⟩
  simp only [List.mem_cons, List.not_mem_nil, or_false] at hx
  rcases hx with rfl | rfl | rfl | rfl | rfl <;> decide

/-- The works of a boundary before any of them is taken, and with a commit's notice besides. -/
def allDue : SlotDue := ⟨true, false, true, true, true⟩

def noticeDue : SlotDue := { allDue with notice := true }

/-- Slot 0 has backup terms, IP1 is LOCKED, and the works of the slot are due as given. -/
def switchable (m : Message) (selected : ListSelect) (due : SlotDue) : State :=
  { ready m with
    ports := updateAt State.reset.ports 1 fun p => { p with state := .locked }
    routes := updateAt State.reset.routes 0 fun e =>
      { e with active := { e.active with primary := [⟨16, 1#16, false⟩], backup := some [⟨17, 1#16, false⟩] } }
    slots := updateAt State.reset.slots 0 fun x =>
      { x with due := due, protection := { x.protection with selected := selected } } }

/-- A slot without a backup list, and a list that is not available; a switch to the list selected and to the other, before and
after the making, and with a notice to take. -/
theorem test_witness_SwitchMovesTheSlot :
    (∃ (s : State) (m : Message), Turn s [] m [] ∧ m.source = s.channel.control ∧ messageCode m = 0x38#8 ∧
        messageLength m = 5 ∧ argByte m 3 = (63 : SlotIdx).val ∧ argByte m 4 = 0 ∧
        s.slots[(63 : SlotIdx)].due.notice = false ∧ s.routes[(63 : SlotIdx)].active.backup = none ∧
        ¬Available s s.routes[(63 : SlotIdx)].active.primary) ∧
      ∀ selected : ListSelect, ∀ due ∈ [allDue, nothingDue, noticeDue], ∃ m : Message,
        Turn (switchable m selected due) [] m [] ∧ m.source = (switchable m selected due).channel.control ∧
        messageCode m = 0x38#8 ∧ messageLength m = 5 ∧ argByte m 3 = (0 : SlotIdx).val ∧ argByte m 4 = 1 ∧
        (switchable m selected due).slots[(0 : SlotIdx)].due = due ∧
        (switchable m selected due).routes[(0 : SlotIdx)].active.backup = some [⟨17, 1#16, false⟩] ∧
        Available (switchable m selected due) [⟨17, 1#16, false⟩] ∧
        (switchable m selected due).slots[(0 : SlotIdx)].protection.selected = selected := by
  unfold Available
  refine ⟨⟨ready (cmd 0 0x38#8 [63#8, 0#8]), _, turn_of rfl rfl rfl, by decide⟩, fun selected due hd =>
    ⟨cmd 0 0x38#8 [0#8, 1#8], turn_of rfl rfl rfl, ?_⟩⟩
  simp only [List.mem_cons, List.not_mem_nil, or_false] at hd
  rcases hd with rfl | rfl | rfl <;> cases selected <;> decide

/-- A record of the event queue. -/
def record (n : Word16) (state : ReportState) (sendCount age : Nat) : EventRecord :=
  { resetDoneRecord 1#16 with sequence := n, state := state, sendCount := sendCount, age := age }

def withQueue (s : State) (q : List EventRecord) (loss : Word16) : State :=
  { s with events := { s.events with queue := q, loss := loss } }

/-- An OUTSTANDING record and an UNSENT one, both named, and no event lost; the same queue after three have been lost, with the
OUTSTANDING one named second, and with no OUTSTANDING one named. -/
theorem test_witness_EventAckRemovesRecords :
    (∃ (s : State) (m : Message), Turn s [] m [] ∧ m.source = s.channel.control ∧ messageCode m = 0x51#8 ∧
        argByte m 3 = [7#16, 8#16].length ∧ messageLength m = 4 + 2 * [7#16, 8#16].length ∧ argWord m 4 = 7#16 ∧
        argWord m 6 = 8#16 ∧ (s.events.queue.map (·.sequence)).Nodup ∧ s.events.loss = 0#16 ∧
        s.events.queue.countP (fun r => r.state = .outstanding) = 1) ∧
      let u := (withQueue State.reset [record 7#16 .outstanding 1 5, record 8#16 .unsent 0 0] 3#16).events
      u.queue = [] ++ record 7#16 .outstanding 1 5 :: [record 8#16 .unsent 0 0] ∧
        (record 7#16 .outstanding 1 5).state = .outstanding ∧ (u.queue.map (·.sequence)).Nodup ∧ u.queue.length ≤ 32 ∧
        u.loss ≠ 0#16 ∧ u.sound ∧ (∃ r ∈ u.queue, r.state = .outstanding ∧ r.sequence = 7#16) ∧
        [8#16, 7#16] = [8#16] ++ 7#16 :: [] ∧ (∀ r ∈ u.queue, r.state = .outstanding → r.sequence ∉ [8#16]) :=
  ⟨⟨withQueue (ready (cmd 0 0x51#8 [2#8, 0#8, 7#8, 0#8, 8#8])) [record 7#16 .outstanding 1 5, record 8#16 .unsent 0 0] 0#16,
    _, turn_of rfl rfl rfl, by decide⟩, by unfold EventUnit.sound; decide⟩

/-- R172: one EVENT_LOSS record joins behind the record of its priority, numbered past a number still held, and a number named
twice counts once. -/
theorem test_ack_with_loss :
    let u := (withQueue State.reset [record 7#16 .outstanding 1 5, record 0#16 .unsent 0 0] 3#16).events
    let r := { u with sequence := 0#16 }.acknowledgeAll 9#16 [0#16, 7#16, 7#16]
    (r.1.queue.map fun x => (x.sequence, x.kind, x.detail)) =
        [(0#16, .resetDone, 1#16), (1#16, .eventLoss, 3#16)] ∧
      r.1.loss = 0#16 ∧ r.2 = 1 := by decide

/-- HOLDOVER and CLIP are latched, HOLDOVER's condition holds, and both are cleared. -/
theorem test_witness_AlarmsClearSetAgainAndDriveThePin :
    ∃ (s : State) (m : Message) (mask conditions after : BitVec 17), Turn s [] m [] ∧ m.source = s.channel.control ∧
      messageCode m = 0x53#8 ∧ messageLength m = 6 ∧ argTriple m 3 = mask.setWidth 24 ∧ ConditionBits s conditions ∧
      (∀ n : Fin 17, after.getLsbD n.val =
        if mask.getLsbD n.val then conditions.getLsbD n.val else s.events.latched.getLsbD n.val) := by
  refine ⟨{ ready (cmd 0 0x53#8 [0#8, 0x50#8, 0#8]) with
    timing := { resetTiming with atBoundary := true, source := some 1, state := .holdover }
    events := { State.reset.events with latched := 0x5000#17 } }, _, 0x5000#17, 0x1000#17, 0x1000#17, turn_of rfl rfl rfl, rfl,
    rfl, rfl, by decide, ?_, by decide⟩
  intro n
  simp only [ready, State.reset, State.afterReset, resetPort]
  revert n
  simp
  decide

/-- An unknown code; a command that needs the control port, from IP1; a SWITCH; a read that asks to clear. -/
theorem test_witness_CodesAndAuthorityAreChecked :
    (∃ m : Message, Turn (ready m) [] m [] ∧ messageCode m = 0x55#8) ∧
      (∃ m : Message, Turn (ready m) [] m [] ∧ m.source ≠ (ready m).channel.control ∧ messageCode m = 0x10#8) ∧
      (∃ m : Message, Turn (switchable m .primary nothingDue) [] m [] ∧ m.source = 1 ∧ messageCode m = 0x38#8) ∧
      ∃ m : Message, Turn (ready m) [] m [] ∧ m.source ≠ (ready m).channel.control ∧ messageCode m = 0x32#8 ∧
        m.bytes[4]? = some 1#8 :=
  ⟨⟨cmd 1 0x55#8 [], ready_turn _, by decide⟩, ⟨cmd 1 0x10#8 [], ready_turn _, by decide⟩,
   ⟨cmd 1 0x38#8 [0#8, 1#8], turn_of rfl rfl rfl, by decide⟩, ⟨cmd 1 0x32#8 [0#8, 1#8], ready_turn _, by decide⟩⟩

/-- A plain read from a port that is not the control port, a read that asks to clear from the control port, an EVENT_ACK
and a SWITCH. -/
theorem test_witness_WrongLengthsAreRefused :
    (∃ m : Message, Turn (ready m) [] m [] ∧ m.source ≠ (ready m).channel.control ∧ messageCode m = 0x01#8 ∧
        messageLength m ≠ 3) ∧
      (∃ m : Message, Turn (ready m) [] m [] ∧ m.source ≠ (ready m).channel.control ∧ m.bytes[4]? ≠ some 1#8 ∧
        messageCode m = 0x12#8 ∧ messageLength m ≠ 5) ∧
      (∃ m : Message, Turn (ready m) [] m [] ∧ m.source = (ready m).channel.control ∧ messageCode m = 0x51#8 ∧
        messageLength m ≠ 4 + 2 * argByte m 3) ∧
      ∃ m : Message, Turn (switchable m .primary nothingDue) [] m [] ∧ m.source = 0 ∧ messageCode m = 0x38#8 ∧
        messageLength m ≠ 5 :=
  ⟨⟨cmd 3 0x01#8 [0#8], ready_turn _, by decide⟩, ⟨cmd 3 0x12#8 [0#8], ready_turn _, by decide⟩,
   ⟨cmd 0 0x51#8 [1#8], ready_turn _, by decide⟩, ⟨cmd 0 0x38#8 [0#8], turn_of rfl rfl rfl, by decide⟩⟩

/-- For each code a byte just above its range, or a word or a triple just above its; and the arguments refused for another
reason. -/
theorem test_witness_BadArgumentsAreRefused :
    (∀ x ∈ [((0x22#8 : Byte), 3, 63), (0x22#8, 4, 1), (0x31#8, 3, 7), (0x12#8, 3, 3), (0x12#8, 4, 1), (0x32#8, 3, 63),
        (0x32#8, 4, 1), (0x41#8, 3, 3), (0x41#8, 4, 1), (0x03#8, 3, 3), (0x10#8, 3, 3), (0x10#8, 4, 1), (0x10#8, 5, 3),
        (0x10#8, 6, 15), (0x10#8, 7, 3), (0x10#8, 8, 3), (0x10#8, 9, 7), (0x11#8, 3, 3), (0x18#8, 3, 4), (0x21#8, 3, 15),
        (0x28#8, 3, 1), (0x28#8, 4, 15), (0x30#8, 3, 7), (0x38#8, 3, 63), (0x38#8, 4, 1), (0x40#8, 3, 3), (0x40#8, 4, 1),
        (0x42#8, 3, 3), (0x42#8, 4, 1), (0x42#8, 5, 63), (0x42#8, 6, 1), (0x50#8, 3, 20), (0x50#8, 4, 1), (0x50#8, 5, 3),
        (0x51#8, 3, 8)],
      let m := cmd 0 x.1 (List.replicate 7 (BitVec.ofNat 8 (x.2.2 + 1)))
      Turn (ready m) [] m [] ∧ messageCode m = x.1 ∧ m.source = (ready m).channel.control ∧ x.2.2 < argByte m x.2.1) ∧
      (∀ x ∈ [((0x10#8 : Byte), [1#8, 1#8, 0#8, 0#8, 0#8, 0#8, 0#8]), (0x10#8, [0#8, 0#8]), (0x21#8, [0#8]),
          (0x28#8, [0#8, 0#8]), (0x42#8, List.replicate 9 0#8), (0x50#8, [0#8]), (0x50#8, [1#8, 0#8]), (0x50#8, [20#8, 0#8])],
        let m := cmd 0 x.1 x.2
        Turn (ready m) [] m [] ∧ messageCode m = x.1 ∧ m.source = (ready m).channel.control ∧
          (argByte m 3 = 0 ∨ argByte m 4 = 0 ∨ argByte m 9 = 0)) ∧
      1023 < (argWord (cmd 0 0x30#8 [0#8, 4#8, 0#8]) 4).toNat ∧
      1023 < (argWord (cmd 0 0x30#8 [0#8, 0#8, 0#8, 0#8, 4#8, 0#8]) 7).toNat ∧
      8388608 < (argTriple (cmd 0 0x42#8 [0#8, 0#8, 0#8, 0#8, 128#8, 0#8, 1#8]) 7).toNat ∧
      131072 ≤ (argTriple (cmd 0 0x53#8 [2#8, 0#8, 0#8]) 3).toNat ∧
      ∃ s : State, s.ports[(3 : PortIdx)].enabled = false := by
  refine ⟨fun x hx => ⟨ready_turn _, rfl, rfl, ?_⟩, fun x hx => ⟨ready_turn _, rfl, rfl, ?_⟩, by decide, by decide, by decide,
    by decide, { State.reset with ports := updateAt State.reset.ports 3 fun p => { p with enabled := false } }, by decide⟩
  · revert x
    decide
  · revert x
    decide

/-- The processor at its turn with a command, with one held back by a full response queue, and past its turn; a SWITCH that
would move a slot whose making alone is due. -/
theorem test_witness_TheProcessorLooksOnceABoundary :
    (∃ m : Message, Turn (ready m) [] m []) ∧
      (∃ s : State, s.timing.atBoundary = true ∧ s.channel.turn = true ∧ s.channel.processor = .executing ∧
        s.channel.queue.length = 1 ∧ ∀ m ∈ s.channel.queue, 4 ≤ s.egress[m.source].responses.length) ∧
      State.reset.channel.turn = false ∧
      ∃ m : Message, let s := switchable m .primary ⟨false, false, false, true, true⟩
        Turn s [] m [] ∧ m.source = s.channel.control ∧ messageCode m = 0x38#8 ∧ messageLength m = 5 ∧
        argByte m 3 = (0 : SlotIdx).val ∧ argByte m 4 = 1 ∧ s.pendingCommit = none ∧
        s.routes[(0 : SlotIdx)].active.backup = some [⟨17, 1#16, false⟩] ∧ Available s [⟨17, 1#16, false⟩] ∧
        s.slots[(0 : SlotIdx)].protection.selected = .primary := by
  refine ⟨⟨cmd 0 0x01#8 [], ready_turn _⟩,
    ⟨{ ready (cmd 2 0x01#8 []) with
       egress := updateAt State.reset.egress 2 fun e => { e with responses := List.replicate 4 ⟨[], .response⟩ } }, by decide⟩,
    rfl, cmd 0 0x38#8 [0#8, 1#8], turn_of rfl rfl rfl, ?_⟩
  unfold Available
  decide

/-! ### Witnesses: resets and boundaries -/

theorem test_witness_PowerOnAndPinResetValues :
    ∀ cause ∈ [ResetCause.powerOn, ResetCause.pin], ∃ (row : Instr) (detail : Word16),
      (row = .powerOnReset 3#2 ∧ cause = .powerOn ∧ detail = 1#16) ∨ (row = .pinReset 3#2 ∧ cause = .pin ∧ detail = 2#16) := by
  intro cause hc
  simp only [List.mem_cons, List.not_mem_nil, or_false] at hc
  rcases hc with rfl | rfl
  · exact ⟨_, _, .inl ⟨rfl, rfl, rfl⟩⟩
  · exact ⟨_, _, .inr ⟨rfl, rfl, rfl⟩⟩

/-- The response to SOFT_RESET found fully sent before the row, and at it; a part at no boundary, and one with no reset due. -/
theorem test_witness_SoftResetTakesEffect :
    (∀ pickDue : Bool, ∃ s : State, s.timing.atBoundary = true ∧ s.channel.processor = .resetDue ∧
        s.events.config[EventKind.resetDone.index].enabled = true ∧ s.ports[(3 : PortIdx)].store.pickDue = pickDue) ∧
      (∃ (s : State) (x : Sending), s.timing.atBoundary = true ∧ s.egress[(3 : PortIdx)].transmitter = some x ∧
        x.origin = .softReset ∧ s.egress[(3 : PortIdx)].serviceDue = true ∧ (x.bytes.length + 2) / 3 ≤ x.next ∧
        s.events.config[EventKind.resetDone.index].enabled = true) ∧
      State.reset.timing.atBoundary = false ∧
      ∃ s : State, s.timing.atBoundary = true ∧ s.channel.processor ≠ .resetDue ∧ ∀ e : PortIdx, s.egress[e].transmitter = none :=
  ⟨fun due => ⟨{ ready (cmd 0 0x02#8 []) with
      channel := ⟨[], .resetDue, true, 0⟩
      ports := updateAt State.reset.ports 3 fun p => { p with store := { p.store with pickDue := due } } },
      by cases due <;> decide⟩,
   ⟨{ ready (cmd 0 0x02#8 []) with
      egress := updateAt State.reset.egress 3 fun e =>
        { e with transmitter := some ⟨[4#8, 130#8, 0#8, 0#8], 2, .softReset⟩, serviceDue := true } },
    ⟨[4#8, 130#8, 0#8, 0#8], 2, .softReset⟩, by decide⟩, rfl, ready (cmd 0 0x02#8 []), by decide⟩

/-- IP1 is LOCKED with a valid average of 520 and is the timing source: TRACKING, at the longest period. -/
def tracked : State :=
  { State.reset with
    ports := updateAt State.reset.ports 1 fun p =>
      { p with
        state := .locked, history := [520#16, 520#16, 520#16, 520#16], lastArrival := some ⟨900, 4#8⟩
        store := { p.store with fifo := [silentFrame] } }
    timing := { resetTiming with source := some 1, tick := 1000, remaining := 100, beforeFirst := false } }

theorem test_witness_BoundaryOpensThePeriod :
    tracked.timing.atBoundary = false ∧ NoExpiryBefore tracked (tracked.timing.tick + tracked.timing.remaining) ∧
      tracked.timing.source = some 1 ∧ tracked.ports[(1 : PortIdx)].state = .locked ∧
      tracked.ports[(1 : PortIdx)].average = some 520 ∧ 99 ≠ 0 ∧ 99 < tracked.timing.remaining ∧
      ({ tracked with timing := { tracked.timing with fixDue := true } } : State).timing.fixDue = true := by
  refine ⟨rfl, ?_, by decide⟩
  intro p a ha hp
  have : ∀ p : PortIdx, ∀ a ∈ tracked.ports[p].lastArrival, 1000 - a.tick ≤ tracked.ports[p].missWindow ∧
      1100 ≤ a.tick + tracked.ports[p].nextTick.missWindow + 1 := by decide
  exact this p a ha

/-- A boundary in progress with a report that is to time out, and a state between boundaries. -/
theorem test_witness_BoundaryLeavesNothingDue :
    (withQueue (ready (cmd 0 0x01#8 [])) [record 7#16 .outstanding 1 1024] 0#16).timing.atBoundary = true ∧
      State.reset.timing.atBoundary = false := by decide

/-- IP1 and IP2 LOCKED, their last arrivals in tick `a`, an empty history and so a miss window of 1,536; the tick is 2,000. -/
def expiring (a : Nat) : State :=
  let p := { resetPort with state := .locked, lastArrival := some ⟨a, 0#8⟩ }
  { State.reset with
    ports := #v[resetPort, p, p, resetPort]
    timing := { resetTiming with tick := 2000, remaining := 100, beforeFirst := false } }

/-- IP1's timer expires first, of two that expire in one tick, in the present tick and 50 ticks later. -/
theorem test_witness_ExpiresFirst :
    (expiring 0).timing.atBoundary = false ∧ 50 < (expiring 0).timing.remaining ∧
      ∀ x ∈ [(463, 0), (513, 50)], ExpiresFirst (expiring x.1) 1 ((expiring x.1).timing.tick + x.2) := by
  refine ⟨rfl, by decide, ?_⟩
  intro x hx
  have w : ∀ a, ∀ p : PortIdx, (expiring a).ports[p].missWindow = 1536 ∧ (expiring a).ports[p].nextTick.missWindow = 1536 := by
    intro a p
    match p with
    | 0 | 1 | 2 | 3 =>
      simp [expiring, Port.missWindow, Port.average, Port.averageValid, Port.depth, Port.missFactor, Port.nextTick,
        resetPort, resetSettings, depthOf, missFactorOf, Config.nominalPeriod]
  have at' : ∀ (p : PortIdx) (t : Nat), TimerExceeds (expiring x.1) p t ↔ (p = 1 ∨ p = 2) ∧ 1536 < t - x.1 := by
    intro p t
    simp only [TimerExceeds, w, ite_self]
    revert p
    simp [expiring, resetPort, Fin.forall_fin_succ]
  have e : ∀ p t, ExpiresAt (expiring x.1) p t ↔
      2000 ≤ t ∧ ((p = 1 ∨ p = 2) ∧ 1536 < t - x.1) ∧ ∀ u, 2000 ≤ u → u < t → ¬((p = 1 ∨ p = 2) ∧ 1536 < u - x.1) := by
    intro p t
    simp only [ExpiresAt, at']
    rfl
  have key : x.1 + 1537 ≤ 2000 + x.2 ∧ ∀ u, 2000 ≤ u → x.1 + 1537 ≤ u → 2000 + x.2 ≤ u := by
    simp only [List.mem_cons, List.not_mem_nil, or_false] at hx
    rcases hx with rfl | rfl <;> constructor <;> simp
  change ExpiresFirst (expiring x.1) 1 (2000 + x.2)
  refine ⟨(e 1 _).2 ⟨by omega, ⟨.inl rfl, by omega⟩, fun u h1 h2 h3 => ?_⟩, fun q u h => ?_⟩
  · exact absurd (key.2 u h1 (by omega)) (by omega)
  · obtain ⟨h1, ⟨h2, h3⟩, -⟩ := (e q u).1 h
    have := key.2 u h1 (by omega)
    rcases h2 with rfl | rfl
    · by_cases h : 2000 + x.2 = u
      · exact .inr ⟨h, by decide⟩
      · exact .inl (by omega)
    · by_cases h : 2000 + x.2 = u
      · exact .inr ⟨h, by decide⟩
      · exact .inl (by omega)

/-- R34: time that passes takes both ports to LOST, IP1 before IP2. -/
theorem test_expiry_without_a_row :
    let t := (expiring 513).elapse 60
    t.ports[(1 : PortIdx)].state = .lost ∧ t.ports[(2 : PortIdx)].state = .lost ∧ t.timing.tick = 2060 ∧
      ((t.events.queue.filter (·.kind = .portLost)).map (·.subject)) = [1, 2] := by decide

/-! ### Witnesses: the works of a boundary -/

def withPort (p : PortIdx) (f : Port → Port) : State := { State.reset with ports := updateAt State.reset.ports p f }

def withSlot (i : SlotIdx) (f : Slot → Slot) : State := { State.reset with slots := updateAt State.reset.slots i f }

/-- A LOCKED port with a full store, one with an empty store, and one in SEARCH, each with its pick due. -/
theorem test_witness_PickAssignsAFrame :
    (∃ s : State, s.ports[(3 : PortIdx)].store.pickDue = true ∧ s.ports[(3 : PortIdx)].state = .locked ∧
        s.ports[(3 : PortIdx)].store.fifo = silentFrame :: List.replicate 7 silentFrame) ∧
      (∃ s : State, s.ports[(3 : PortIdx)].store.pickDue = true ∧ s.ports[(3 : PortIdx)].state = .locked ∧
        s.ports[(3 : PortIdx)].store.fifo = []) ∧
      ∃ s : State, s.ports[(3 : PortIdx)].store.pickDue = true ∧ s.ports[(3 : PortIdx)].state ≠ .locked :=
  ⟨⟨withPort 3 fun p => { p with
      state := .locked, store := { p.store with pickDue := true, fifo := List.replicate 8 silentFrame } }, by decide⟩,
   ⟨withPort 3 fun p => { p with state := .locked, store := { p.store with pickDue := true } }, by decide⟩,
   ⟨withPort 3 fun p => { p with store := { p.store with pickDue := true } }, by decide⟩⟩

theorem noCommitDue_of {s : State} (h : s.pendingCommit = none) : NoCommitDue s := by
  intro c hc
  simp [h] at hc

theorem noSwitchFor_of {s : State} {i : SlotIdx} (h : s.channel.queue = []) : NoSwitchFor s i := by
  intro older newer m t
  simpa [h] using t.queue

/-- A check that fails, one that does not, and a making after a failed check. -/
theorem test_witness_SettleCheckFailsOnLostSources :
    (∃ s : State, s.slots[(63 : SlotIdx)].due.check = true ∧ s.slots[(63 : SlotIdx)].context.phase = .settle ∧
        ¬Available s s.slots[(63 : SlotIdx)].context.sounding) ∧
      (∃ s : State, s.slots[(63 : SlotIdx)].due.check = true ∧ s.slots[(63 : SlotIdx)].context.phase ≠ .settle) ∧
      ∃ s : State, s.slots[(63 : SlotIdx)].due = ⟨false, false, false, true, s.slots[(63 : SlotIdx)].due.mix⟩ ∧
        NoCommitDue s ∧ NoSwitchFor s 63 ∧ s.slots[(63 : SlotIdx)].settleFailed = true ∧
        s.slots[(63 : SlotIdx)].context.phase = .settle := by
  refine ⟨⟨withSlot 63 fun x => { x with
      due := { x.due with check := true }, context := { x.context with phase := .settle, phaseLength := 2 } }, ?_⟩,
    ⟨withSlot 63 fun x => { x with due := { x.due with check := true } }, by decide⟩,
    withSlot 63 fun x => { x with
      due := ⟨false, false, false, true, true⟩, settleFailed := true
      context := { x.context with phase := .settle, phaseLength := 2, phasePosition := 1 } }, by decide,
    noCommitDue_of rfl, noSwitchFor_of rfl, by decide⟩
  unfold Available
  decide

/-- Slot 0 with input 16 as primary and input 32 as backup, the ports named LOCKED, and its evaluation due. -/
def protected_ (locked : List PortIdx) (backup : Option MixList) (mode : RevertMode) (x : Protection) : State :=
  { State.reset with
    ports := mapTable (Vector.ofFn fun p : PortIdx => p) fun p =>
      if p ∈ locked then { resetPort with state := .locked } else resetPort
    routes := updateAt State.reset.routes 0 fun e =>
      { e with active := ⟨[⟨16, 1#16, false⟩], backup, 0, 0, mode, 2#16⟩ }
    slots := updateAt State.reset.slots 0 fun y => { y with protection := x, due := allDue } }

/-- One state for each clause: its ports, its record and its protection record. -/
theorem test_witness_EvaluationFollowsTable27 :
    ∀ x ∈ [(([1] : List PortIdx), (none : Option MixList), RevertMode.none, (⟨.primary, false, none, false⟩ : Protection)),
        ([], none, .none, ⟨.primary, false, none, false⟩),
        ([2], some [⟨32, 1#16, false⟩], .none, ⟨.primary, false, none, false⟩),
        ([], some [⟨32, 1#16, false⟩], .none, ⟨.primary, false, none, true⟩),
        ([1], some [⟨32, 1#16, false⟩], .none, ⟨.backup, true, none, false⟩),
        ([1, 2], some [⟨32, 1#16, false⟩], .revert, ⟨.backup, true, none, false⟩),
        ([1, 2], some [⟨32, 1#16, false⟩], .revert, ⟨.backup, false, none, false⟩),
        ([1, 2], some [⟨32, 1#16, false⟩], .revert, ⟨.backup, false, some 1, false⟩)],
      let s := protected_ x.1 x.2.1 x.2.2.1 x.2.2.2
      s.slots[(0 : SlotIdx)].due.protect = true ∧ s.slots[(0 : SlotIdx)].due.notice = false ∧ s.pendingCommit = none ∧
        (Available s s.routes[(0 : SlotIdx)].active.primary ↔ 1 ∈ x.1) ∧ (Available s [⟨32, 1#16, false⟩] ↔ 2 ∈ x.1) := by
  unfold Available
  decide

/-- A STEADY slot, and one in each other phase, asked for another list; the fade-in at level 2,560 with Fo = 6 and r = 4. A
slot with a request that waits for its making. -/
theorem test_witness_RetargetFollowsTable25 :
    (∀ phase ∈ [Phase.steady, .fadeOut, .gap, .fadeIn, .settle], ∃ (s : State) (c : SlotContext) (target : MixList),
        c = s.slots[(63 : SlotIdx)].context ∧ c.phase = phase ∧ s.latching[(7 : Fin 8)].fadeOut.val = 6 ∧
          4096 * 4 < c.level * 6 + 4096 ∧ c.level * 6 ≤ 4096 * 4 ∧ listsEqual target c.sounding = false ∧
          listsEqual target c.target = false) ∧
      ∃ s : State, s.slots[(63 : SlotIdx)].due = ⟨false, false, false, true, s.slots[(63 : SlotIdx)].due.mix⟩ ∧
        NoCommitDue s ∧ NoSwitchFor s 63 ∧ s.slots[(63 : SlotIdx)].settleFailed = false ∧
        s.slots[(63 : SlotIdx)].requests = [⟨[], 7⟩] := by
  refine ⟨fun phase _ => ⟨{ withSlot 63 (fun x => { x with context := { x.context with phase := phase, level := 2560 } }) with
    latching := State.reset.latching.set 7 ⟨6, 0, 4, 0⟩ }, _, [], rfl, ?_, by decide +revert,
    by decide +revert, by decide +revert, by decide +revert, by decide +revert⟩,
    withSlot 63 fun x => { x with due := ⟨false, false, false, true, true⟩, requests := [⟨[], 7⟩] }, by decide,
    noCommitDue_of rfl, noSwitchFor_of rfl, by decide⟩
  simp [withSlot, updateAt]

theorem test_witness_EqualListsHoldTheSameTerms :
    listSound [⟨63, 1#16, false⟩, ⟨1, 2#16, false⟩, ⟨2, 3#16, true⟩, ⟨3, 4#16, true⟩] ∧
      listSound [⟨3, 4#16, true⟩, ⟨63, 1#16, false⟩] := by
  unfold listSound
  decide

/-- One slot for each clause: STEADY; within a phase; at the end of a phase under profiles that give each next phase, and
none. -/
theorem test_witness_StepAdvancesTheSlot :
    ∀ x ∈ [(Phase.steady, 0, 0, zeroProfile), (.fadeOut, 4, 3, zeroProfile), (.fadeOut, 1, 1, (⟨0, 1, 0, 0⟩ : Profile)),
        (.fadeOut, 1, 1, ⟨0, 0, 1, 0⟩), (.gap, 255, 255, ⟨0, 1, 1023, 0⟩), (.gap, 1, 1, ⟨0, 1, 0, 1⟩),
        (.fadeIn, 1023, 1023, ⟨0, 0, 1, 255⟩), (.gap, 1, 1, zeroProfile), (.fadeIn, 1, 1, zeroProfile),
        (.settle, 255, 255, zeroProfile)],
      let s : State := { withSlot 63 (fun y => { y with
          context := { y.context with phase := x.1, phaseLength := x.2.1, phasePosition := x.2.2.1 }
          due := ⟨false, false, false, true, true⟩ }) with latching := Vector.replicate 8 x.2.2.2 }
      s.slots[(63 : SlotIdx)].due = ⟨false, false, false, true, s.slots[(63 : SlotIdx)].due.mix⟩ ∧ NoCommitDue s ∧
        NoSwitchFor s 63 ∧ s.slots[(63 : SlotIdx)].settleFailed = false ∧ s.slots[(63 : SlotIdx)].requests = [] ∧
        s.slots[(63 : SlotIdx)].context.phase = x.1 ∧ s.latching[s.slots[(63 : SlotIdx)].context.governing] = x.2.2.2 := by
  intro x hx
  refine ⟨by decide +revert, noCommitDue_of rfl, noSwitchFor_of rfl, by decide +revert⟩

/-- Slot 0 mixes a sample of its own port at full level, and the value is the sample. Terms of ports 2 and 0, and each of the
picks due or past. -/
theorem test_witness_MixComputesAndMetersTheSample :
    let s : State := { withSlot 0 (fun x => { x with due := ⟨false, false, false, false, true⟩ }) with
      ports := updateAt State.reset.ports 0 fun p =>
        { p with store := { p.store with assigned := ⟨Vector.replicate 16 0x800000#24, 0xFFFF#16, 0#8⟩ } } }
    let u : State := { withSlot 0 (fun x => { x with
        context := { x.context with sounding := [⟨40, 1#16, false⟩, ⟨3, 1#16, true⟩] }
        due := ⟨false, false, false, false, true⟩ }) with
      ports := updateAt State.reset.ports 2 fun p => { p with store := { p.store with pickDue := true } } }
    (∀ p : PortIdx, s.ports[p].store.pickDue = false) ∧ s.slots[(0 : SlotIdx)].due = ⟨false, false, false, false, true⟩ ∧
      s.slots[(0 : SlotIdx)].context.sounding = straightList 0 ∧ s.ports[laneOf 0].store.hushed = false ∧
      s.ports[laneOf 0].store.assigned.samples[slotInLane 0].toInt = -8388608 ∧
      ((-8388608 : Int) * (16384 : Nat)) * (4096 : Nat) / (16384 * 4096) = -8388608 ∧
      (0x800000#24 : Sample).toInt = -8388608 ∧
      u.slots[(0 : SlotIdx)].due = ⟨false, false, false, false, true⟩ ∧
      (∃ t ∈ u.slots[(0 : SlotIdx)].context.sounding, laneOf t.source = 2) ∧ u.ports[(2 : PortIdx)].store.pickDue = true ∧
      (∀ t ∈ u.slots[(0 : SlotIdx)].context.sounding, laneOf t.source < 2 →
        u.ports[laneOf t.source].store.pickDue = false) ∧
      [⟨3, 1#16, true⟩, ⟨40, 1#16, false⟩].Perm u.slots[(0 : SlotIdx)].context.sounding := by decide

/-- Each mode and state, with the subject at the threshold and just below it, one period short of the hold and at it. -/
theorem test_witness_MonitorEvaluatesItsSubject :
    ∀ mode ∈ [MonitorMode.above, .below], ∀ state ∈ [MonitorState.under, .over], ∀ threshold ∈ [0, 1], ∀ run ∈ [0, 1],
      let s : State := { State.reset with
        monitors := updateAt State.reset.monitors 3 fun _ => ⟨true, 63, mode, threshold, 2, state, run, true⟩ }
      s.monitors[(3 : Fin 4)].evalDue = true ∧ s.slots[s.monitors[(3 : Fin 4)].subject].due.transition = false ∧
        s.slots[s.monitors[(3 : Fin 4)].subject].due.mix = false ∧
        (s.slots[s.monitors[(3 : Fin 4)].subject].output.sample.toInt.natAbs < s.monitors[(3 : Fin 4)].threshold ↔
          threshold = 1) := by decide

/-! ### Witnesses: lanes -/

/-- IP3 in a port state and its framer in a framer state, with what the test changes besides. -/
def lane (state : PortState) (framer : FramerState) (f : Port → Port) : State :=
  withPort 3 fun p => f { p with state := state, framer := { p.framer with state := framer } }

theorem test_witness_FramesNotTakenMoveTheFramer :
    (((lane .search .searching id).elapse 0).ports[(3 : PortIdx)].enabled = true ∧
        ((lane .search .searching id).elapse 0).ports[(3 : PortIdx)].framer.state = .searching ∧
        ((lane .search .searching id).elapse 0).ports[(3 : PortIdx)].framer.position ≤ 0 ∧
        markerPresent (goodFrame 7#8) = true ∧ markerPresent (zeroFrame 0#8 0#8) = true) ∧
      ((lane .search .aligned id).elapse 0).ports[(3 : PortIdx)].framer.state = .aligned ∧
        crcCorrect (zeroFrame 0#8 0#8) = false := by decide +kernel

/-- A candidate at its first confirmation and at its last, a frame that is not valid, and one that is. -/
theorem test_witness_ConfirmingFramesDeclareAlignment :
    ∀ count ∈ [1, 2], ∀ state ∈ [PortState.search, .lost],
      let u := (lane state .confirming fun p => { p with framer := { p.framer with confirmCount := count } }).elapse 0
      u.ports[(3 : PortIdx)].enabled = true ∧ u.ports[(3 : PortIdx)].framer.state = .confirming ∧
        frameValid noMarker = false ∧ frameValid (goodFrame 7#8) = true ∧
        u.ports[(3 : PortIdx)].framer.confirmCount = count ∧ u.ports[(3 : PortIdx)].framer.lastSequence = none ∧
        u.ports[(3 : PortIdx)].state = state ∧ tagKind (frameTag (goodFrame 7#8)) = 0 := by decide +kernel

/-- A port that waits; one that qualifies, below and at W+T arrivals, from SEARCH and from LOST. -/
theorem test_witness_ArrivalsQualifyAPort :
    (∀ state ∈ [PortState.search, .lost],
        let u := (lane state .aligned fun p => { p with framer := { p.framer with runCount := 2 } }).elapse 0
        frameValid (goodFrame 7#8) = true ∧ u.ports[(3 : PortIdx)].enabled = true ∧
          u.ports[(3 : PortIdx)].framer.state = .aligned ∧ u.ports[(3 : PortIdx)].state = state) ∧
      ∀ count ∈ [257, 258], ∀ origin ∈ [Origin.search, .lost],
        let u := (lane .qualify .aligned fun p =>
          { p with arrivalCounter := count, windowCounter := 1, origin := some origin }).elapse 0
        u.ports[(3 : PortIdx)].enabled = true ∧ u.ports[(3 : PortIdx)].framer.state = .aligned ∧
          u.ports[(3 : PortIdx)].state = .qualify ∧ (u.ports[(3 : PortIdx)].framed 7#8).arrivalCounter = count ∧
          (u.ports[(3 : PortIdx)].framed 7#8).window + (u.ports[(3 : PortIdx)].framed 7#8).tolerance = 258 ∧
          (u.ports[(3 : PortIdx)].framed 7#8).windowCounter ≠ 0 ∧
          (u.ports[(3 : PortIdx)].framed 7#8).origin = some origin := by decide +kernel

/-- A PRIME port one frame short of its prime centre and below it, a LOCKED one with room, and one whose store is full. -/
theorem test_witness_ArrivalsFillTheStore :
    ∀ x ∈ [(PortState.prime, 1), (.prime, 2), (.prime, 7), (.locked, 7), (.locked, 8)],
      let u := (lane x.1 .aligned fun p =>
        { p with store := { p.store with fifo := List.replicate x.2 silentFrame } }).elapse 0
      let q := (u.ports[(3 : PortIdx)].framed 7#8).recorded u.timing.tick 7#8
      u.ports[(3 : PortIdx)].enabled = true ∧ u.ports[(3 : PortIdx)].framer.state = .aligned ∧ q.state = x.1 ∧
        q.store.fifo.length = x.2 ∧ q.primeCentre = 3 := by decide +kernel

/-- The first and the second missing marker, in each state of the port. -/
theorem test_witness_MissingMarkersLoseAlignment :
    markerPresent noMarker = false ∧
      ∀ x ∈ [(PortState.search, none, 0), (.search, none, 1), (.lost, none, 1), (.qualify, some Origin.search, 1),
          (.qualify, some .lost, 1), (.prime, none, 1), (.locked, none, 1)],
        let u := (lane x.1 .aligned fun p =>
          { p with origin := x.2.1, windowCounter := 1, framer := { p.framer with missCount := x.2.2 } }).elapse 0
        u.ports[(3 : PortIdx)].enabled = true ∧ u.ports[(3 : PortIdx)].framer.state = .aligned ∧
          u.ports[(3 : PortIdx)].framer.missCount = x.2.2 ∧ u.ports[(3 : PortIdx)].state = x.1 ∧
          u.ports[(3 : PortIdx)].origin = x.2.1 := by decide

/-- A window two boundaries from its end, and one; W−T arrivals, and one fewer; from SEARCH and from LOST. -/
theorem test_witness_WindowsCompleteByTheirCount :
    ∀ left ∈ [1, 2], ∀ count ∈ [253, 254], ∀ origin ∈ [Origin.search, .lost],
      let q := (lane .qualify .aligned fun p =>
        { p with windowCounter := left, arrivalCounter := count, origin := some origin, windowDue := true }).ports[(3 : PortIdx)]
      q.state = .qualify ∧ q.windowDue = true ∧ q.windowCounter = left ∧ q.framer.state = .aligned ∧
        (q.window ≤ q.arrivalCounter + q.tolerance ↔ count = 254) ∧ q.origin = some origin := by decide

/-- A miss window of 3 × 512 ticks, from intervals of 511.5 on average, at its last tick and one tick past it. -/
theorem test_witness_MissTimerTakesThePortToLost :
    ∀ tick ∈ [2536, 2537], ∀ state ∈ [PortState.prime, .locked],
      let s : State := { (lane state .aligned fun p => { p with
          lastArrival := some ⟨1000, 7#8⟩, history := [9#16, 511#16, 512#16, 511#16, 512#16] }) with
        timing := { resetTiming with tick := tick, remaining := 100 } }
      let u := s.elapse 0
      u.ports[(3 : PortIdx)].lastArrival = some ⟨1000, 7#8⟩ ∧ u.ports[(3 : PortIdx)].state = state ∧
        u.ports[(3 : PortIdx)].depth = 4 ∧
        2046 = ((u.ports[(3 : PortIdx)].history.drop (u.ports[(3 : PortIdx)].history.length - 4)).map (·.toNat)).sum ∧
        2 * 2046 < 2 * 512 * 4 + 4 ∧ 2 * 512 * 4 ≤ 2 * 2046 + 4 ∧ u.ports[(3 : PortIdx)].missFactor = 3 ∧
        (3 * 512 < u.timing.tick - 1000 ↔ tick = 2537) := by decide

/-! ### Witnesses: messages and egress frames -/

/-- A buffer that expects index 21, at its 255th and its 256th silent boundary; every kind and index of a tag is at hand. -/
theorem test_witness_FragmentsFollowTable33 :
    ∀ silence ∈ [254, 255],
      let s := withPort 3 fun p => { p with reassembly := some ⟨[64#8, 1#8, 2#8], 21, silence⟩, silenceDue := true }
      s.ports[(3 : PortIdx)].reassembly = some ⟨[64#8, 1#8, 2#8], 21, silence⟩ ∧ s.ports[(3 : PortIdx)].silenceDue = true ∧
        (256 ≤ silence + 1 ↔ silence = 255) ∧ State.reset.ports[(3 : PortIdx)].reassembly = none ∧
        (∀ b ∈ s.ports[(3 : PortIdx)].reassembly, b.expected ≠ 20) ∧ (5 ≤ 7 ∧ 7 < 8 ∧ 31 < 32 ∧ 22 ≤ 22) := by
  intro silence hs
  refine ⟨rfl, rfl, by decide +revert, rfl, ?_, by decide⟩
  intro b hb
  cases hb
  simp

/-- A length byte of 2; one beyond the bytes at hand; one that fits, with the command queue at seven and at eight. -/
theorem test_witness_CompleteMessagesAreQueuedOrAnswered :
    (2#8 : Byte).toNat < 3 ∧ [7#8, 1#8, 2#8].length < (7#8 : Byte).toNat ∧ 64 < (65#8 : Byte).toNat ∧
      (3#8 : Byte).toNat + 2 < [3#8, 1#8, 2#8, 0#8, 0#8, 0#8].length ∧ (3#8 : Byte).toNat ≤ [3#8, 1#8, 2#8, 0#8, 0#8].length ∧
      ∀ n ∈ [7, 8], ∃ s : State, s.channel.queue.length = n :=
  ⟨by decide, by decide, by decide, by decide, by decide, fun n _ =>
    ⟨{ State.reset with channel := ⟨List.replicate n (cmd 0 0x01#8 []), .executing, true, 0⟩ }, by simp⟩⟩

/-- The shortest message and the longest. -/
theorem test_witness_FragmentsOfAMessageReassemble :
    ∀ m ∈ [cmd 3 0x01#8 [], cmd 3 0x51#8 (List.replicate 61 9#8)], m.wellFormed = true ∧ m.source = 3 ∧
      State.reset.ports[(3 : PortIdx)].reassembly = none ∧ State.reset.channel.queue.length < 8 := by decide +kernel

theorem test_witness_EgressFramesReadBack :
    ∃ (f : LaneFrame) (shift : Word16 → Bool → Word16),
      f = buildFrame 7#8 0xFFFF#16 idleField (Vector.replicate 16 0x123456#24) ∧
        ∀ c bit, shift c bit = (c <<< 1) ^^^ (if c.getLsbD 15 != bit then 0x1021#16 else 0#16) :=
  ⟨_, _, rfl, fun _ _ => rfl⟩

/-- The egress port EP0, its service field and its frame due. -/
def egressPort (f : Egress → Egress) (path : ReportPath) : State :=
  { State.reset with
    egress := updateAt State.reset.egress 0 fun e => f { e with serviceDue := true, frameDue := true }
    events := { State.reset.events with path := path } }

/-- A disabled port, a message fully sent, one being sent, a response, a report that may be sent and one that may not; and a
frame whose field has been supplied. -/
theorem test_witness_FramesCarryTheTransmittersFragment :
    (∀ s ∈ [egressPort (fun e => { e with enabled := false }) .running,
        egressPort (fun e => { e with transmitter := some ⟨[4#8, 129#8, 0#8, 0#8], 2, .response⟩ }) .running,
        egressPort (fun e => { e with transmitter := some ⟨[4#8, 129#8, 0#8, 0#8], 1, .response⟩ }) .running,
        egressPort (fun e => { e with responses := [⟨[4#8, 129#8, 0#8, 0#8], .response⟩] }) .running,
        egressPort id .stalled, egressPort id .running],
      s.egress[(0 : PortIdx)].serviceDue = true ∧ s.egress[(0 : PortIdx)].frameDue = true ∧
        ∀ k : Fin 16, s.slots[slotIndex 0 k].due.transition = false ∧ s.slots[slotIndex 0 k].due.mix = false) ∧
      (egressPort (fun e => { e with serviceDue := false }) .running).egress[(0 : PortIdx)].serviceDue = false ∧
      ([4#8, 129#8, 0#8, 0#8].length + 2) / 3 = 2 ∧ (∀ x ∈ [(3, 0), (64, 0), (64, 21)], 3 ≤ x.1 ∧ x.2 < (x.1 + 2) / 3) ∧
      (egressPort id .running).events.queue = [] ++ resetDoneRecord 1#16 :: [] ∧
      ((egressPort id .running).events.queue.map (·.sequence)).Nodup ∧
      (resetDoneRecord 1#16).state = .unsent ∧ (resetDoneRecord 1#16).inTransmission = false ∧
      (egressPort id .running).events.queue.countP (fun r => r.state = .outstanding || r.inTransmission) < 4 := by decide

/-- A SWITCH that would move slot 0, whose making is past; its reply has no room while EP0 holds four responses. -/
def waitingSwitch (n : Nat) : State :=
  { switchable (cmd 0 0x38#8 [0#8, 1#8]) .primary nothingDue with
    egress := updateAt State.reset.egress 0 fun e =>
      { e with responses := List.replicate n ⟨[4#8, 129#8, 0#8, 0#8], .response⟩, serviceDue := true } }

/-- A place freed by the transmitter's pick would bring the SWITCH too late. -/
theorem test_witness_LeadsTo : ¬SwitchTooLate (waitingSwitch 4) ∧ SwitchTooLate (waitingSwitch 3) := by
  constructor
  · rintro ⟨older, newer, m, i, backup, turn, -⟩
    have q : [cmd 0 0x38#8 [0#8, 1#8]] = older ++ m :: newer := turn.queue
    obtain ⟨rfl, rfl, rfl⟩ : older = [] ∧ m = cmd 0 0x38#8 [0#8, 1#8] ∧ newer = [] := by
      cases older <;> simp_all
    exact absurd turn.room (by decide)
  · refine ⟨[], [], cmd 0 0x38#8 [0#8, 1#8], 0, true, ⟨rfl, rfl, rfl, rfl, by simp, by decide⟩, ?_⟩
    decide

/-- R154: the look comes before that pick, finds nothing, and the SWITCH waits for the next boundary. -/
theorem test_look_before_the_pick :
    let t := (waitingSwitch 4).transmitterWork 0
    t.channel.turn = false ∧ t.channel.queue = [cmd 0 0x38#8 [0#8, 1#8]] ∧ t.egress[(0 : PortIdx)].responses.length = 3 := by
  decide +kernel

/-- For every period there is a slot-valid map. -/
theorem test_witness_valid_map :
    ∃ valid : Word16, ∀ k : Fin 16, valid.getLsbD k.val = State.reset.slots[slotIndex 0 k].output.valid :=
  ⟨0xFFFF#16, by decide⟩

theorem test_witness_MessagesFullySentHaveTheirEffect :
    ∀ origin ∈ [MessageOrigin.response, .softReset, .report 0#16],
      let s := egressPort (fun e => { e with transmitter := some ⟨[4#8, 130#8, 0#8, 0#8], 2, origin⟩ }) .running
      s.egress[(0 : PortIdx)].transmitter = some ⟨[4#8, 130#8, 0#8, 0#8], 2, origin⟩ ∧
        s.egress[(0 : PortIdx)].serviceDue = true ∧ ([4#8, 130#8, 0#8, 0#8].length + 2) / 3 ≤ 2 := by decide

/-! ### Witnesses: commits, reports and the event queue -/

/-- The commit of lane 3, with slot 63 dirty, is due in period 0; and a slot that waits for its notice. -/
theorem test_witness_CommitTakesEffectAtItsPeriod :
    (let s := edited (cmd 0 0x01#8 []) (some ⟨8#4, 0#16, .scheduled⟩)
     s.timing.atBoundary = true ∧ s.pendingCommit = some ⟨8#4, 0#16, .scheduled⟩ ∧ s.timing.periodCounter = 0#16 ∧
       (8#4).getLsbD ((63 : SlotIdx).val / 16) = true ∧ s.routes[(63 : SlotIdx)].dirty = true ∧
       s.events.config[EventKind.commitDone.index].enabled = true ∧ s.events.queue.length < 32) ∧
      (withSlot 63 fun x => { x with due := noticeDue }).slots[(63 : SlotIdx)].due.notice = true ∧
      NoCommitDue (withSlot 63 fun x => { x with due := noticeDue }) :=
  ⟨by decide, by decide, noCommitDue_of rfl⟩

theorem test_witness_ReportsTimeOutAndStall :
    ∀ count ∈ [3, 4],
      let s := withQueue State.reset [record 6#16 .unsent 0 0, record 7#16 .outstanding count 1024] 0#16
      s.events.queue = [record 6#16 .unsent 0 0] ++ record 7#16 .outstanding count 1024 :: [] ∧
        (s.events.queue.map (·.sequence)).Nodup ∧ (record 7#16 .outstanding count 1024).state = .outstanding ∧
        (record 7#16 .outstanding count 1024).stalled = false ∧ 1024 ≤ (record 7#16 .outstanding count 1024).age ∧
        (record 7#16 .outstanding count 1024).sendCount = count := by decide

/-- A disabled kind, an enabled one, and queues of 31 and 32 records. -/
theorem test_witness_RaisedEventsEnterTheQueue :
    State.reset.events.config[EventKind.transitionDone.index].enabled = false ∧
      State.reset.events.config[EventKind.portLost.index].enabled = true ∧
      ∀ n ∈ [31, 32], (withQueue State.reset (List.replicate n (record 7#16 .unsent 0 0)) 0#16).events.queue.length = n := by
  decide

/-! ### Witnesses: the laws -/

/-- A part reset by RESET_N whose next row is another pin reset. -/
def reseated : State := (State.afterReset .pin 2).withPending [.pinReset 1#2]

theorem test_witness_laws_step : step reseated = .next ((State.afterReset .pin 1).withPending []) := rfl

theorem test_witness_StepsKeepStoresSound : StoresSound reseated := by
  unfold StoresSound Port.storeSound
  decide

theorem test_witness_StepsKeepTimingSound : TimingSound reseated := by
  unfold TimingSound
  decide

theorem test_witness_StepsKeepRoutesSound : RoutesSound reseated := by
  intro i
  simp [reseated, State.withPending, State.afterReset, resetRoute, straightRecord, straightList, RouteRecord.sound, listSound]

theorem test_witness_StepsKeepContextsSound : ContextsSound reseated := by
  intro i
  simp [reseated, State.withPending, State.afterReset, resetSlot, resetContext, SlotContext.sound, Config.fullLevel]

theorem test_witness_StepsKeepProtectionSound : ProtectionSound reseated := by
  intro i
  right
  simp [reseated, State.withPending, State.afterReset, resetSlot, resetProtection, Protection.sound]

theorem test_witness_StepsKeepChannelSound : ChannelSound reseated := by
  unfold ChannelSound Egress.sound
  decide

theorem test_witness_StepsKeepTheControlPortEnabled : EnablesAgree reseated ∧ ControlEnabled reseated := by
  unfold EnablesAgree ControlEnabled
  decide

theorem test_witness_StepsKeepEventsSound : EventsSound reseated := by
  unfold EventsSound EventUnit.sound
  decide

theorem test_witness_StepsKeepAlarmsLatched : AlarmsFollow reseated := by
  refine ⟨by decide, by decide, ?_⟩
  simp [reseated, State.withPending, State.afterReset, resetSlot, resetProtection]

end Sys2Proof.Tests
end

section
/-! PROOFS. The lanes and their frames (01_lanes_and_frames.md): what the operations on a port compose to, and what each
frame row examines. -/

namespace Sys2Proof.Machine

namespace State

variable (s : State) (p : PortIdx)

theorem updatePort_updatePort (f g : Port → Port) :
    (s.updatePort p f).updatePort p g = s.updatePort p fun x => g (f x) := by
  simp only [updatePort, updateAt_updateAt]

theorem updatePort_congr {f g : Port → Port} (h : f s.ports[p] = g s.ports[p]) : s.updatePort p f = s.updatePort p g := by
  simp only [updatePort, updateAt_congr _ _ h]

/-- The port itself after its update. -/
theorem updatePort_port (f : Port → Port) : (s.updatePort p f).ports[p] = f s.ports[p] :=
  updateAt_get_self s.ports p f

theorem updateFramer_eq (f : Framer → Framer) :
    s.updateFramer p f = s.updatePort p fun x => { x with framer := f x.framer } := rfl

theorem countPort_eq (f : PortCounters → PortCounters) :
    s.countPort p f = s.updatePort p fun x => { x with counters := f x.counters } := rfl

variable {s p}

theorem framerIn_eq {x : FramerState} (enabled : s.ports[p].enabled = true) (state : s.ports[p].framer.state = x) :
    s.framerIn p x = true := by
  rw [framerIn, enabled, state, decide_eq_true rfl]
  rfl

/-! A row on a frame of its kind, at a framer in its state, examines the frame. -/

theorem candidateAt_eq {position : Nat} {f : LaneFrame} (enabled : s.ports[p].enabled = true)
    (state : s.ports[p].framer.state = .searching) (marker : markerPresent f = true)
    (reached : s.ports[p].framer.position ≤ position) :
    s.candidateAt p position f = s.examineCandidate p position f := by
  rw [candidateAt, framerIn_eq enabled state, marker, decide_eq_true reached]
  rfl

theorem confirmingAt_eq {f : LaneFrame} (enabled : s.ports[p].enabled = true)
    (state : s.ports[p].framer.state = .confirming) : s.confirmingAt p f = s.examineConfirming p f := by
  rw [confirmingAt, framerIn_eq enabled state, if_pos rfl]

theorem arrivalAt_eq {f : LaneFrame} (enabled : s.ports[p].enabled = true) (state : s.ports[p].framer.state = .aligned)
    (valid : frameValid f = true) : s.arrivalAt p f = s.examineArrival p f := by
  rw [arrivalAt, framerIn_eq enabled state, valid]
  rfl

theorem crcErrorAt_eq {f : LaneFrame} (enabled : s.ports[p].enabled = true) (state : s.ports[p].framer.state = .aligned)
    (marker : markerPresent f = true) (bad : crcCorrect f = false) : s.crcErrorAt p f = s.examineCrcError p := by
  rw [crcErrorAt, framerIn_eq enabled state, marker, bad]
  rfl

theorem missingAt_eq {f : LaneFrame} (enabled : s.ports[p].enabled = true) (state : s.ports[p].framer.state = .aligned)
    (marker : markerPresent f = false) : s.missingAt p f = s.examineMissing p := by
  rw [missingAt, framerIn_eq enabled state, marker]
  rfl

end State

theorem saturatingInc_eq (c : Word16) : saturatingInc c = if c = 0xFFFF#16 then 0xFFFF#16 else c + 1#16 := by
  unfold saturatingInc
  split
  · next h => exact h
  · rfl

end Sys2Proof.Machine

namespace Sys2Proof.Proofs
open Machine

/-- Settles O35: each row examines its frame at the row's tick, and makes one update of its port. -/
theorem framesNotTakenMoveTheFramer : Obligations.FramesNotTakenMoveTheFramer := by
  rintro s u p elapsed position f rfl enabled marker
  refine ⟨fun searching reached => ?_, fun aligned bad => ?_⟩
  · have row : exec (.candidate p elapsed position f) s = .next ((s.elapse elapsed).candidateAt p position f) := rfl
    rw [row, State.candidateAt_eq enabled searching marker reached, State.examineCandidate]
    cases crcCorrect f <;> rfl
  · have row : exec (.crcErrorFrame p elapsed f) s = .next ((s.elapse elapsed).crcErrorAt p f) := rfl
    rw [row, State.crcErrorAt_eq enabled aligned marker bad, State.examineCrcError, State.updateFramer_eq,
      State.countPort_eq, State.updatePort_updatePort]
    simp only [saturatingInc_eq]
    rfl

end Sys2Proof.Proofs
end

section
namespace Sys2Proof.Machine

namespace State

variable (s : State) (p : PortIdx)

/-- An update of a port, by what it makes of the port as it stands. -/
theorem updatePort_eq_const (f : Port → Port) : s.updatePort p f = s.updatePort p fun _ => f s.ports[p] :=
  s.updatePort_congr p rfl

variable {s p} {q : Port}

/-- R28: a qualification from SEARCH that fails. -/
theorem failQualification_of_search (origin : q.origin = some .search) (detail : Word16) :
    (s.updatePort p fun _ => q).failQualification p detail =
      ((s.updatePort p fun _ =>
        { q with
          state := .search, origin := none, windowCounter := 0, arrivalCounter := 0, history := [], lastArrival := none
          framer := q.framer.restartRun }).raise .qualifyFail (smallSubject p) detail).latch (alarmQualifyFail p) := by
  have fails : q.failQualification =
      { q with
        state := .search, origin := none, windowCounter := 0, arrivalCounter := 0, history := [], lastArrival := none
        framer := q.framer.restartRun } := by
    unfold Port.failQualification
    rw [origin]
    rfl
  rw [failQualification, updatePort_updatePort, fails]
  simp [lostCondition]

/-- R28, R36: a qualification from LOST that fails; the condition of the LOST alarm holds again. -/
theorem failQualification_of_lost (origin : q.origin = some .lost) (detail : Word16) :
    (s.updatePort p fun _ => q).failQualification p detail =
      (((s.updatePort p fun _ =>
        { q with
          state := .lost, origin := none, windowCounter := 0, arrivalCounter := 0
          framer := q.framer.restartRun }).raise .qualifyFail (smallSubject p) detail).latch (alarmQualifyFail p)).latch
        (alarmLost p) := by
  have fails : q.failQualification =
      { q with
        state := .lost, origin := none, windowCounter := 0, arrivalCounter := 0, framer := q.framer.restartRun } := by
    unfold Port.failQualification
    rw [origin]
    rfl
  rw [failQualification, updatePort_updatePort, fails]
  simp [lostCondition]

/-- R35: a port that loses its source. -/
theorem loseSource_eq :
    (s.updatePort p fun _ => q).loseSource p =
      ((s.updatePort p fun _ =>
        { q with
          state := .lost, store := { q.store with fifo := [], lastAssigned := silentFrame }
          framer := q.framer.restartRun }).raise .portLost (smallSubject p) 0#16).latch (alarmLost p) := by
  rw [loseSource, updatePort_updatePort]
  rfl

end State

/-- R22: the run count of a framer out of alignment has been cleared already. -/
theorem Framer.restartRun_of_searching {f : Framer} (h : f.state = .searching) : f.restartRun = f := by
  simp [restartRun, isAligned, h]

/-- R8, R10: a port whose framer has lost alignment. -/
def Port.misaligned (q : Port) : Port :=
  { q with
    framer := q.framer.loseAlignment
    counters := { q.counters with alignmentLosses := saturatingInc q.counters.alignmentLosses } }

/-- R8, R27, R35: a loss of alignment by the state of its port. -/
theorem State.loseAlignment_eq (s : State) (p : PortIdx) :
    s.loseAlignment p =
      match s.ports[p].state with
      | .qualify => (s.updatePort p fun _ => s.ports[p].misaligned).failQualification p detailAlignment
      | .prime | .locked => (s.updatePort p fun _ => s.ports[p].misaligned).loseSource p
      | .search | .lost | .disabled => s.updatePort p fun _ => s.ports[p].misaligned := by
  rw [loseAlignment, updateFramer_eq, countPort_eq, updatePort_updatePort, updatePort_eq_const]
  rfl

end Sys2Proof.Machine

namespace Sys2Proof.Proofs
open Machine

/-- Settles O39: the first miss is one update of the port; the second is a loss of alignment, by the state of the port. -/
theorem missingMarkersLoseAlignment : Obligations.MissingMarkersLoseAlignment := by
  rintro s u p elapsed f q rfl marker enabled aligned
  have row : exec (.missingMarker p elapsed f) s = .next ((s.elapse elapsed).missingAt p f) := rfl
  rw [row, State.missingAt_eq enabled aligned marker, State.examineMissing]
  refine ⟨fun first => by rw [if_pos first]; rfl, fun second hq => ?_⟩
  rw [if_neg (by omega), State.loseAlignment_eq]
  obtain rfl : q = (s.elapse elapsed).ports[p].misaligned := by
    rw [hq, Port.misaligned, saturatingInc_eq]
    rfl
  have searching : (s.elapse elapsed).ports[p].misaligned.framer.restartRun =
      (s.elapse elapsed).ports[p].misaligned.framer := Framer.restartRun_of_searching rfl
  have state : (s.elapse elapsed).ports[p].misaligned.state = (s.elapse elapsed).ports[p].state := rfl
  rw [state]
  refine ⟨?_, fun qualify origin => ?_, fun qualify origin => ?_, ?_⟩
  · rintro (h | h) <;> rw [h]
  · rw [qualify]
    dsimp only
    rw [State.failQualification_of_search origin, searching]
    rfl
  · rw [qualify]
    dsimp only
    rw [State.failQualification_of_lost origin, searching]
    rfl
  · rintro (h | h) <;> rw [h] <;> dsimp only <;> rw [State.loseSource_eq, searching] <;> rfl

end Sys2Proof.Proofs
end

section
/-! PROOFS. The processor's look (R154) and the rows that wait for it: a command leaves the processor's turn spent, and makes
no work of a slot due again; a row that goes through `afterLook` leads where its event leads. -/

namespace Sys2Proof.Machine

/-- The processor's turn, and the making and the metering of every slot, are due in `t` as they were in `s`. -/
structure KeepsWorks (s t : State) : Prop where
  turn : t.channel.turn = s.channel.turn
  transition : ∀ i : SlotIdx, t.slots[i].due.transition = s.slots[i].due.transition
  mix : ∀ i : SlotIdx, t.slots[i].due.mix = s.slots[i].due.mix

namespace KeepsWorks

variable {s t u : State}

theorem refl (s : State) : KeepsWorks s s := ⟨rfl, fun _ => rfl, fun _ => rfl⟩

theorem trans (h : KeepsWorks s t) (k : KeepsWorks t u) : KeepsWorks s u :=
  ⟨k.turn.trans h.turn, fun i => (k.transition i).trans (h.transition i), fun i => (k.mix i).trans (h.mix i)⟩

theorem of_eq (turn : t.channel.turn = s.channel.turn) (slots : t.slots = s.slots) : KeepsWorks s t :=
  ⟨turn, fun i => by rw [slots], fun i => by rw [slots]⟩

/-- An update of one slot that leaves the two works alone. -/
theorem of_slot {i : SlotIdx} {f : Slot → Slot} {events : EventUnit}
    (works : ∀ x, (f x).due.transition = x.due.transition ∧ (f x).due.mix = x.due.mix) :
    KeepsWorks s { s with slots := updateAt s.slots i f, events := events } := by
  have one : ∀ j : SlotIdx, (updateAt s.slots i f)[j] = s.slots[j] ∨ (updateAt s.slots i f)[j] = f s.slots[j] := fun j => by
    by_cases h : i = j
    · subst h; exact .inr (updateAt_get_self _ _ _)
    · exact .inl (updateAt_get_ne _ _ h)
  refine ⟨rfl, fun j => ?_, fun j => ?_⟩ <;> dsimp only <;> rcases one j with h | h <;> rw [h]
  · exact (works _).1
  · exact (works _).2

end KeepsWorks

open KeepsWorks

variable (s : State) (m : Message)

/-! ### The protection unit's work, which a SWITCH can have with it -/

theorem takeCommit_keepsWorks (c : PendingCommit) : KeepsWorks s (s.takeCommit c) := by
  obtain ⟨slots, routes, h, hi⟩ := s.takeCommit_writes c
  rw [h]
  refine ⟨rfl, fun i => ?_, fun i => ?_⟩ <;> dsimp only <;> rw [(hi i).1] <;> split <;> rfl

theorem commitFor_keepsWorks (i : SlotIdx) : KeepsWorks s (s.commitFor i) := by
  unfold State.commitFor State.takeCommitIfDue
  split
  · split
    · exact takeCommit_keepsWorks s _
    · exact .refl s
  · exact .refl s

theorem ensureNotice_keepsWorks (i : SlotIdx) : KeepsWorks s (s.ensureNotice i) := by
  unfold State.ensureNotice
  split
  · rw [State.takeNotice_writes]
    exact .of_slot fun _ => ⟨rfl, rfl⟩
  · exact .refl s

theorem ensureEvaluation_keepsWorks (i : SlotIdx) : KeepsWorks s (s.ensureEvaluation i) := by
  unfold State.ensureEvaluation
  split
  · obtain ⟨f, new, events, h⟩ := s.evaluateSlot_evaluates i
    have evaluated : KeepsWorks s (s.evaluateSlot i) := by
      rw [h]
      exact .of_slot fun _ => ⟨rfl, rfl⟩
    exact evaluated.trans (.of_slot fun _ => ⟨rfl, rfl⟩)
  · exact .refl s

theorem ensureProtect_keepsWorks (i : SlotIdx) : KeepsWorks s (s.ensureProtect i) :=
  ((commitFor_keepsWorks s i).trans (ensureNotice_keepsWorks _ i)).trans (ensureEvaluation_keepsWorks _ i)

/-! ### The owning rules of the commands -/

theorem ensureTiming_keepsWorks : KeepsWorks s s.ensureTiming := by
  unfold State.ensureTiming
  split
  · obtain ⟨timing, events, h⟩ := s.fixTiming_writes
    rw [h]
    exact .of_eq rfl rfl
  · exact .refl s

theorem eventConfigRule_keepsWorks : KeepsWorks s (eventConfigRule m s).state := by
  unfold eventConfigRule
  split
  · split <;> exact .of_eq rfl rfl
  · exact .refl s

theorem eventAckRule_keepsWorks : KeepsWorks s (eventAckRule m s).state := by
  unfold eventAckRule
  split <;> exact .of_eq rfl rfl

theorem readAlarmsRule_keepsWorks : KeepsWorks s (readAlarmsRule m s).state := by
  unfold readAlarmsRule
  split <;> exact .refl s

theorem clearAlarmsRule_keepsWorks : KeepsWorks s (clearAlarmsRule m s).state := by
  unfold clearAlarmsRule
  split
  · split <;> exact .of_eq rfl rfl
  · exact .refl s

theorem alarmConfigRule_keepsWorks : KeepsWorks s (alarmConfigRule m s).state := by
  unfold alarmConfigRule
  split
  · split <;> exact .of_eq rfl rfl
  · exact .refl s

theorem identifyRule_keepsWorks : KeepsWorks s (identifyRule m s).state := by
  unfold identifyRule
  split <;> exact .refl s

theorem softResetRule_keepsWorks : KeepsWorks s (softResetRule m s).state := by
  unfold softResetRule
  split <;> exact .of_eq rfl rfl

theorem setControlRule_keepsWorks : KeepsWorks s (setControlRule m s).state := by
  have moved : ∀ p, KeepsWorks s (moveControl s p) := fun p => by
    unfold moveControl
    split <;> exact .of_eq rfl rfl
  unfold setControlRule
  split
  · split
    · exact moved _
    · exact .refl s
  · exact .refl s

theorem disableEgress_keepsWorks (e : PortIdx) : KeepsWorks s (disableEgress s e) := by
  unfold disableEgress
  split
  · obtain ⟨f, processor, events, h⟩ := s.completeSending_writes e
    obtain ⟨events', h'⟩ := (s.completeSending e).abandonSending_writes e
    rw [h', h]
    exact .of_eq rfl rfl
  · exact .refl s

theorem enableEgress_keepsWorks (e : PortIdx) : KeepsWorks s (enableEgress s e) := by
  unfold enableEgress
  split <;> exact .of_eq rfl rfl

theorem egressConfigRule_keepsWorks : KeepsWorks s (egressConfigRule m s).state := by
  unfold egressConfigRule
  split
  · split
    · exact .refl s
    · split
      · exact enableEgress_keepsWorks s _
      · exact disableEgress_keepsWorks s _
  · exact .refl s

theorem portConfigRule_keepsWorks : KeepsWorks s (portConfigRule m s).state := by
  have configured : ∀ p enable x, KeepsWorks s (configurePort s p enable x) := fun p enable x => by
    unfold configurePort
    split
    · exact .of_eq rfl rfl
    · split <;> exact .of_eq rfl rfl
  unfold portConfigRule
  split
  · split
    · exact .refl s
    · exact configured _ _ _
  · exact .refl s

theorem portRestartRule_keepsWorks : KeepsWorks s (portRestartRule m s).state := by
  have restarted : ∀ p, KeepsWorks s (restartPort s p) := fun p => by
    unfold restartPort
    split <;> exact .of_eq rfl rfl
  unfold portRestartRule
  split
  · split
    · exact restarted _
    · exact .refl s
  · exact .refl s

theorem readPortRule_keepsWorks : KeepsWorks s (readPortRule m s).state := by
  have cleared : ∀ p clear, KeepsWorks s (clearCounters s p clear) := fun p clear => by
    unfold clearCounters
    split <;> exact .of_eq rfl rfl
  unfold readPortRule
  split
  · split
    · exact cleared _ _
    · exact .refl s
  · exact .refl s

theorem timingConfigRule_keepsWorks : KeepsWorks s (timingConfigRule m s).state := by
  unfold timingConfigRule
  split
  · split
    · exact (ensureTiming_keepsWorks s).trans (.of_eq rfl rfl)
    · exact .refl s
  · exact .refl s

theorem readTimingRule_keepsWorks : KeepsWorks s (readTimingRule m s).state := by
  unfold readTimingRule
  split
  · exact ensureTiming_keepsWorks s
  · exact .refl s

theorem stageEntryRule_keepsWorks : KeepsWorks s (stageEntryRule m s).state := by
  unfold stageEntryRule
  split
  · split <;> exact .of_eq rfl rfl
  · exact .refl s

theorem copyActiveRule_keepsWorks : KeepsWorks s (copyActiveRule m s).state := by
  have copied : ∀ mask, KeepsWorks s (s.copyActive mask) := fun mask => by
    unfold State.copyActive
    exact .of_eq rfl rfl
  unfold copyActiveRule
  split
  · split
    · exact .refl s
    · split
      · exact copied _
      · exact .refl s
  · exact .refl s

theorem readEntryRule_keepsWorks : KeepsWorks s (readEntryRule m s).state := by
  unfold readEntryRule
  split
  · split <;> exact .refl s
  · exact .refl s

theorem commitRule_keepsWorks : KeepsWorks s (commitRule m s).state := by
  unfold commitRule
  split
  · split
    · exact .refl s
    · split
      · exact .refl s
      · split <;> exact .of_eq rfl rfl
  · exact .refl s

theorem cancelCommitRule_keepsWorks : KeepsWorks s (cancelCommitRule m s).state := by
  unfold cancelCommitRule
  split
  · exact .refl s
  · split <;> exact .of_eq rfl rfl

theorem readCommitRule_keepsWorks : KeepsWorks s (readCommitRule m s).state := by
  unfold readCommitRule
  split <;> exact .refl s

theorem writeProfileRule_keepsWorks : KeepsWorks s (writeProfileRule m s).state := by
  unfold writeProfileRule
  split
  · split
    · rw [answer, State.writeProfile_writes]
      exact .of_eq rfl rfl
    · exact .refl s
  · exact .refl s

theorem readProfileRule_keepsWorks : KeepsWorks s (readProfileRule m s).state := by
  unfold readProfileRule
  split
  · split <;> exact .refl s
  · exact .refl s

theorem readSlotRule_keepsWorks : KeepsWorks s (readSlotRule m s).state := by
  have cleared : ∀ i clear, KeepsWorks s (clearClipCounter s i clear) := fun i clear => by
    unfold clearClipCounter
    split
    · exact .of_slot fun _ => ⟨rfl, rfl⟩
    · exact .refl s
  unfold readSlotRule
  split
  · split
    · exact cleared _ _
    · exact .refl s
  · exact .refl s

theorem executeSwitch_keepsWorks (i : SlotIdx) (select : ListSelect) : KeepsWorks s (executeSwitch s i select).state := by
  have switched : KeepsWorks s (switchSlot s i select) := by
    unfold switchSlot
    split
    · exact .refl s
    · have moved : KeepsWorks s (s.updateProtection i fun _ => switchedProtection select) :=
        .of_slot fun _ => ⟨rfl, rfl⟩
      exact moved.trans (.of_slot fun _ => ⟨rfl, rfl⟩)
  unfold executeSwitch
  split
  · exact switched
  · exact .refl s

theorem switchRule_keepsWorks : KeepsWorks s (switchRule m s).state := by
  have noticed : ∀ i, KeepsWorks s (noticeFirst s i) := fun i => by
    unfold noticeFirst
    split
    · exact ensureProtect_keepsWorks s i
    · exact .refl s
  unfold switchRule
  split
  · split
    · exact .refl s
    · exact (noticed _).trans (executeSwitch_keepsWorks _ _ _)
  · exact .refl s

theorem readMetersRule_keepsWorks : KeepsWorks s (readMetersRule m s).state := by
  have cleared : ∀ e clear, KeepsWorks s (clearMeters s e clear) := fun e clear => by
    unfold clearMeters
    split
    · refine ⟨rfl, fun i => ?_, fun i => ?_⟩ <;> simp <;> split <;> rfl
    · exact .refl s
  unfold readMetersRule
  split
  · split
    · exact cleared _ _
    · exact .refl s
  · exact .refl s

theorem monitorConfigRule_keepsWorks : KeepsWorks s (monitorConfigRule m s).state := by
  unfold monitorConfigRule
  split
  · split <;> exact .of_eq rfl rfl
  · exact .refl s

/-! ### The look -/

variable {s m} {older newer : List Message}

theorem deliver_keepsWorks {r : CommandResult} (h : KeepsWorks s r.state) : KeepsWorks s (r.deliver m) :=
  h.trans (.of_eq rfl rfl)

/-- A command row whose message the processor takes, by what its owning rule keeps. -/
theorem executeCommand_keepsWorks (h : Turn s older m newer) {code : Byte} (hc : messageCode m = code)
    {authority : Authority} {rule : State → CommandResult} (hr : ∀ s, KeepsWorks s (rule s).state) :
    KeepsWorks (s.taken older newer) (executeCommand code authority m rule s) := by
  rw [executeCommand_of_turn h hc]
  apply deliver_keepsWorks
  unfold judge
  split
  · exact .refl _
  · exact hr _

/-- Whatever command the processor takes. -/
theorem runMessage_keepsWorks (h : Turn s older m newer) : KeepsWorks (s.taken older newer) (runMessage m s) := by
  unfold runMessage
  split
  · next hc => exact executeCommand_keepsWorks h hc (identifyRule_keepsWorks · m)
  · next hc => exact executeCommand_keepsWorks h hc (softResetRule_keepsWorks · m)
  · next hc => exact executeCommand_keepsWorks h hc (setControlRule_keepsWorks · m)
  · next hc => exact executeCommand_keepsWorks h hc (portConfigRule_keepsWorks · m)
  · next hc => exact executeCommand_keepsWorks h hc (portRestartRule_keepsWorks · m)
  · next hc => exact executeCommand_keepsWorks h hc (readPortRule_keepsWorks · m)
  · next hc => exact executeCommand_keepsWorks h hc (timingConfigRule_keepsWorks · m)
  · next hc => exact executeCommand_keepsWorks h hc (readTimingRule_keepsWorks · m)
  · next hc => exact executeCommand_keepsWorks h hc (stageEntryRule_keepsWorks · m)
  · next hc => exact executeCommand_keepsWorks h hc (copyActiveRule_keepsWorks · m)
  · next hc => exact executeCommand_keepsWorks h hc (readEntryRule_keepsWorks · m)
  · next hc => exact executeCommand_keepsWorks h hc (commitRule_keepsWorks · m)
  · next hc => exact executeCommand_keepsWorks h hc (cancelCommitRule_keepsWorks · m)
  · next hc => exact executeCommand_keepsWorks h hc (readCommitRule_keepsWorks · m)
  · next hc => exact executeCommand_keepsWorks h hc (writeProfileRule_keepsWorks · m)
  · next hc => exact executeCommand_keepsWorks h hc (readProfileRule_keepsWorks · m)
  · next hc => exact executeCommand_keepsWorks h hc (readSlotRule_keepsWorks · m)
  · next hc => exact executeCommand_keepsWorks h hc (switchRule_keepsWorks · m)
  · next hc => exact executeCommand_keepsWorks h hc (egressConfigRule_keepsWorks · m)
  · next hc => exact executeCommand_keepsWorks h hc (readMetersRule_keepsWorks · m)
  · next hc => exact executeCommand_keepsWorks h hc (monitorConfigRule_keepsWorks · m)
  · next hc => exact executeCommand_keepsWorks h hc (eventConfigRule_keepsWorks · m)
  · next hc => exact executeCommand_keepsWorks h hc (eventAckRule_keepsWorks · m)
  · next hc => exact executeCommand_keepsWorks h hc (readAlarmsRule_keepsWorks · m)
  · next hc => exact executeCommand_keepsWorks h hc (clearAlarmsRule_keepsWorks · m)
  · next hc => exact executeCommand_keepsWorks h hc (alarmConfigRule_keepsWorks · m)
  · have unknown : commandCodes.contains (messageCode m) = false := by simp_all [commandCodes]
    unfold runUnrecognisedCode refuseCode
    rw [unknown, h.taken_eq]
    exact deliver_keepsWorks (.refl _)

/-- A look is spent, or there is none; in either case it makes no work of a slot due again. -/
theorem runProcessor_spends (s : State) :
    s.runProcessor = s ∨
      s.runProcessor.channel.turn = false ∧
        ∀ i : SlotIdx, s.runProcessor.slots[i].due.transition = s.slots[i].due.transition ∧
          s.runProcessor.slots[i].due.mix = s.slots[i].due.mix := by
  unfold State.runProcessor
  split
  · next ready =>
    right
    split
    · next m rest ha =>
      have chosen : s.choice = some m := by simp [State.choice, ready, ha]
      obtain ⟨older, newer, turn⟩ := choice_iff.mp chosen
      have kept := runMessage_keepsWorks turn
      exact ⟨kept.turn, fun i => ⟨kept.transition i, kept.mix i⟩⟩
    · exact ⟨rfl, fun _ => ⟨rfl, rfl⟩⟩
  · exact .inl rfl

/-! ### Rows that go through `afterLook` -/

/-- R154: where the turn is spent, no SWITCH is too late. -/
theorem not_switchTooLate_of_spent (h : s.channel.turn = false) : ¬SwitchTooLate s := by
  rintro ⟨older, newer, m, i, backup, turn, -⟩
  exact absurd (h.symm.trans turn.turn) (by decide)

/-- Away from a boundary, no SWITCH is too late. -/
theorem not_switchTooLate_of_passed (h : s.timing.atBoundary = false) : ¬SwitchTooLate s := by
  rintro ⟨older, newer, m, i, backup, turn, -⟩
  exact absurd (h.symm.trans turn.boundary) (by decide)

/-- A row that looks before its event where it must, and whose event is all there is to it once the turn is spent. -/
theorem leadsTo_of_afterLook {row : Instr} {event : State → State} (here : exec row s = .next (s.afterLook event))
    (spent : ∀ v : State, v.channel.turn = false → exec row v = .next (event v)) : LeadsTo row s (event s) := by
  refine ⟨fun intime => by rw [here, afterLook_of_intime intime], fun late early => ⟨s.runProcessor, rfl, ?_⟩⟩
  rcases runProcessor_spends s with idle | ⟨turn, -⟩
  · rw [idle]
  · rw [here, afterLook_of_late late early, spent _ turn]

theorem elapse_atBoundary {n : Nat} (h : n ≠ 0) : (s.elapse n).timing.atBoundary = false := by
  rw [State.elapse, if_neg h]
  rfl

/-- The same for a row that may fall later, and whose event leaves the time and the turn alone. -/
theorem leadsTo_of_elapse {row : Instr} {event : State → State} {n : Nat}
    (all : ∀ v : State, exec row v = .next ((v.elapse n).afterLook event))
    (timing : ∀ v : State, (event v).timing = v.timing) (turn : ∀ v : State, (event v).channel.turn = v.channel.turn) :
    LeadsTo row s (event (s.elapse n)) := by
  by_cases hn : n = 0
  · subst hn
    refine leadsTo_of_afterLook (all s) fun v hv => ?_
    have intime : ¬SwitchTooLate (event v) := not_switchTooLate_of_spent (by rw [turn, hv])
    rw [all]
    exact congrArg _ (afterLook_of_intime fun late => absurd late intime)
  · have intime : ¬SwitchTooLate (event (s.elapse n)) :=
      not_switchTooLate_of_passed (by rw [timing, elapse_atBoundary hn])
    exact ⟨fun _ => by rw [all, afterLook_of_intime fun late => absurd late intime], fun late => absurd late intime⟩

/-- What decides whether a SWITCH is too late: the processor, the room of the response queues, the slots, the routes, and the
states of the ports. -/
theorem SwitchTooLate.congr {t : State} (timing : t.timing = s.timing) (channel : t.channel = s.channel)
    (room : ∀ e : PortIdx, t.egress[e].responses = s.egress[e].responses) (slots : t.slots = s.slots)
    (routes : t.routes = s.routes) (ports : ∀ p : PortIdx, t.ports[p].state = s.ports[p].state) (h : SwitchTooLate t) :
    SwitchTooLate s := by
  obtain ⟨older, newer, m, i, backup, turn, source, code, length, slot, select, due, list, locked, selected⟩ := h
  have turn' : Turn s older m newer :=
    ⟨timing ▸ turn.boundary, channel ▸ turn.turn, channel ▸ turn.executing, channel ▸ turn.queue,
      fun x hx => room x.source ▸ turn.heldBack x hx, room m.source ▸ turn.room⟩
  rw [slots] at due selected
  rw [routes] at list locked
  exact ⟨older, newer, m, i, backup, turn', channel ▸ source, code, length, slot, select, due, list,
    fun t ht => ports _ ▸ locked t ht, selected⟩

end Sys2Proof.Machine
end

section
/-! PROOFS. An arrival (R7): the sequence check, the port's state machine and its store, each as one update of the port. -/

namespace Sys2Proof.Machine

/-! ### What an arrival leaves alone -/

/-- The time and the processor's turn are in `t` as they were in `s`. -/
structure KeepsTurn (s t : State) : Prop where
  timing : t.timing = s.timing
  turn : t.channel.turn = s.channel.turn

namespace KeepsTurn

variable {s t u : State}

theorem refl (s : State) : KeepsTurn s s := ⟨rfl, rfl⟩

theorem trans (h : KeepsTurn s t) (k : KeepsTurn t u) : KeepsTurn s u :=
  ⟨k.timing.trans h.timing, k.turn.trans h.turn⟩

end KeepsTurn

section
variable (s : State) (p : PortIdx)

theorem updatePort_keepsTurn (f : Port → Port) : KeepsTurn s (s.updatePort p f) := ⟨rfl, rfl⟩

theorem answerUnexecuted_keepsTurn (bytes : List Byte) (status : Status) (detail : Word16) :
    KeepsTurn s (s.answerUnexecuted p bytes status detail) := by
  unfold State.answerUnexecuted
  dsimp only
  split <;> exact ⟨rfl, rfl⟩

theorem completeMessage_keepsTurn (bytes : List Byte) : KeepsTurn s (s.completeMessage p bytes) := by
  unfold State.completeMessage State.queueMessage
  dsimp only
  split
  · exact ⟨rfl, rfl⟩
  · split
    · exact answerUnexecuted_keepsTurn s p _ _ _
    · split
      · exact ⟨rfl, rfl⟩
      · exact answerUnexecuted_keepsTurn s p _ _ _

theorem rejectFragment_keepsTurn (detail : Word16) : KeepsTurn s (s.rejectFragment p detail) := ⟨rfl, rfl⟩

theorem dropPartial_keepsTurn : KeepsTurn s (s.dropPartial p) := by
  unfold State.dropPartial
  split <;> exact ⟨rfl, rfl⟩

theorem takeFirst_keepsTurn (index : Nat) (payload : List Byte) : KeepsTurn s (s.takeFirst p index payload) := by
  unfold State.takeFirst
  split
  · exact (dropPartial_keepsTurn s p).trans ⟨rfl, rfl⟩
  · exact rejectFragment_keepsTurn s p _

theorem takeMiddle_keepsTurn (index : Nat) (payload : List Byte) : KeepsTurn s (s.takeMiddle p index payload) := by
  unfold State.takeMiddle
  split
  · split <;> exact ⟨rfl, rfl⟩
  · exact rejectFragment_keepsTurn s p _

theorem takeLast_keepsTurn (index : Nat) (payload : List Byte) : KeepsTurn s (s.takeLast p index payload) := by
  have completes : ∀ bytes, KeepsTurn s ((s.setReassembly p none).completeMessage p bytes) := fun bytes =>
    (updatePort_keepsTurn s p _).trans (completeMessage_keepsTurn (s.setReassembly p none) p bytes)
  unfold State.takeLast
  split
  · split
    · exact completes _
    · exact rejectFragment_keepsTurn s p _
  · exact rejectFragment_keepsTurn s p _

theorem takeOnly_keepsTurn (index : Nat) (payload : List Byte) : KeepsTurn s (s.takeOnly p index payload) := by
  have idle : KeepsTurn s ((s.dropPartial p).setReassembly p none) := (dropPartial_keepsTurn s p).trans ⟨rfl, rfl⟩
  unfold State.takeOnly
  split
  · exact idle.trans (completeMessage_keepsTurn _ p _)
  · exact rejectFragment_keepsTurn s p _

/-- R146: the reassembly buffer's act on a service field. -/
theorem takeFragment_keepsTurn (tag : Byte) (payload : List Byte) : KeepsTurn s (s.takeFragment p tag payload) := by
  unfold State.takeFragment
  dsimp only
  split
  · exact .refl s
  · split
    · exact rejectFragment_keepsTurn s p _
    · split
      · exact rejectFragment_keepsTurn s p _
      · split
        · exact takeFirst_keepsTurn s p _ _
        · split
          · exact takeMiddle_keepsTurn s p _ _
          · split
            · exact takeLast_keepsTurn s p _ _
            · exact takeOnly_keepsTurn s p _ _

theorem failQualification_keepsTurn (detail : Word16) : KeepsTurn s (s.failQualification p detail) := by
  obtain ⟨f, events, h⟩ := s.failQualification_writes p detail
  rw [h]
  exact ⟨rfl, rfl⟩

theorem appendFrame_keepsTurn (r : FrameRecord) : KeepsTurn s (s.appendFrame p r) := by
  obtain ⟨f, events, h⟩ := s.appendFrame_writes p r
  rw [h]
  exact ⟨rfl, rfl⟩

/-- R36: the port's state machine. -/
theorem portArrival_keepsTurn (r : FrameRecord) (reached : Bool) : KeepsTurn s (s.portArrival p r reached) := by
  have stored : KeepsTurn s (s.storeArrival p r) := (updatePort_keepsTurn s p _).trans (appendFrame_keepsTurn _ p r)
  have counted : KeepsTurn s (s.qualifyArrival p r.sequence) := by
    unfold State.qualifyArrival
    dsimp only
    split
    · exact (updatePort_keepsTurn s p _).trans (failQualification_keepsTurn _ p _)
    · exact ⟨rfl, rfl⟩
  unfold State.portArrival
  split
  · split <;> exact ⟨rfl, rfl⟩
  · split <;> exact ⟨rfl, rfl⟩
  · exact counted
  · refine stored.trans ?_
    unfold State.lockIfPrimed
    split <;> exact ⟨rfl, rfl⟩
  · exact stored
  · exact .refl s

theorem takeArrival_keepsTurn (f : LaneFrame) (reached : Bool) : KeepsTurn s (s.takeArrival p f reached) := by
  have checked : KeepsTurn s (s.checkSequence p (frameSequence f)) := by
    unfold State.checkSequence
    dsimp only
    split <;> exact ⟨rfl, rfl⟩
  exact (checked.trans (portArrival_keepsTurn _ p _ reached)).trans (takeFragment_keepsTurn _ p _ _)

theorem arrivalAt_keepsTurn (f : LaneFrame) : KeepsTurn s (s.arrivalAt p f) := by
  unfold State.arrivalAt State.examineArrival
  split
  · exact (updatePort_keepsTurn s p _).trans (takeArrival_keepsTurn _ p f _)
  · exact .refl s

theorem confirmingAt_keepsTurn (f : LaneFrame) : KeepsTurn s (s.confirmingAt p f) := by
  unfold State.confirmingAt State.examineConfirming
  split
  · split
    · split
      · exact ⟨rfl, rfl⟩
      · exact (updatePort_keepsTurn s p _).trans (takeArrival_keepsTurn _ p f _)
    · exact ⟨rfl, rfl⟩
  · exact .refl s

/-- R154: ARRIVAL leads to what its frame does at the row's tick. -/
theorem arrival_leadsTo (elapsed : Nat) (f : LaneFrame) :
    LeadsTo (.arrival p elapsed f) s ((s.elapse elapsed).arrivalAt p f) :=
  leadsTo_of_elapse (event := (State.arrivalAt · p f)) (fun _ => rfl) (fun v => (arrivalAt_keepsTurn v p f).timing)
    fun v => (arrivalAt_keepsTurn v p f).turn

/-- R154: and CONFIRMING_FRAME. -/
theorem confirmingFrame_leadsTo (elapsed : Nat) (f : LaneFrame) :
    LeadsTo (.confirmingFrame p elapsed f) s ((s.elapse elapsed).confirmingAt p f) :=
  leadsTo_of_elapse (event := (State.confirmingAt · p f)) (fun _ => rfl)
    (fun v => (confirmingAt_keepsTurn v p f).timing) fun v => (confirmingAt_keepsTurn v p f).turn

end

/-! ### The sequence check -/

/-- R9: a port that has compared and kept the sequence byte of an arrival. -/
def Port.checked (q : Port) (sequence : Byte) : Port :=
  { q with
    framer := { q.framer with lastSequence := some sequence }
    counters := { q.counters with
      sequenceGaps :=
        if q.framer.sequenceGap sequence then saturatingInc q.counters.sequenceGaps else q.counters.sequenceGaps } }

theorem State.checkSequence_eq (s : State) (p : PortIdx) (sequence : Byte) :
    s.checkSequence p sequence = s.updatePort p fun q => q.checked sequence := by
  unfold checkSequence
  dsimp only
  rw [updateFramer_eq, countPort_eq, updatePort_updatePort]
  split
  · next gap => exact s.updatePort_congr p (by simp only [Port.checked, gap, if_true])
  · next gap => exact s.updatePort_congr p (by simp only [Port.checked, gap]; rfl)

/-- R9: there is no gap where nothing has been taken since the framer lost alignment, nor behind the number before. -/
theorem Framer.sequenceGap_eq_false_iff (f : Framer) (sequence : Byte) :
    f.sequenceGap sequence = false ↔ f.lastSequence = none ∨ f.lastSequence = some (sequence - 1#8) := by
  unfold sequenceGap
  cases f.lastSequence with
  | none => simp
  | some l => simp [eq_comm (a := l), BitVec.sub_eq_iff_eq_add]

theorem Port.checked_of_first {q : Port} (h : q.framer.lastSequence = none) (sequence : Byte) :
    q.checked sequence = { q with framer := { q.framer with lastSequence := some sequence } } := by
  have gap : q.framer.sequenceGap sequence = false := (Framer.sequenceGap_eq_false_iff _ _).mpr (.inl h)
  simp only [checked, gap]
  rfl

/-- R9: the count of gaps, as the statements give it. -/
theorem sequenceGaps_eq (f : Framer) (sequence : Byte) (gaps : Word16) :
    (if f.lastSequence = none ∨ f.lastSequence = some (sequence - 1#8) ∨ gaps = 0xFFFF#16 then gaps else gaps + 1#16) =
      if f.sequenceGap sequence then saturatingInc gaps else gaps := by
  have gap := f.sequenceGap_eq_false_iff sequence
  rw [saturatingInc]
  cases h : f.sequenceGap sequence with
  | false => rcases gap.mp h with h | h <;> simp [h]
  | true =>
    rw [h] at gap
    obtain ⟨some, other⟩ := not_or.mp fun e => absurd (gap.mpr e) (by decide)
    simp [some, other]

/-- R6, R9: the framer's taking of a valid frame and the sequence check make the port of the statements. -/
theorem Port.framed_eq (q : Port) (sequence : Byte) :
    q.framed sequence = ({ q with framer := q.framer.takeValid } : Port).checked sequence := by
  unfold framed checked
  rw [sequenceGaps_eq]
  rfl

/-! ### The port's state machine -/

theorem frameRecord_sequence (f : LaneFrame) : (frameRecord f).sequence = f[2] := rfl

theorem Port.record_eq (q : Port) (tick : Nat) (sequence : Byte) : q.record tick sequence = q.recorded tick sequence := by
  unfold record recorded intervalTo
  cases q.lastArrival with
  | none => rfl
  | some a =>
    dsimp only
    by_cases follows : sequence = a.sequence + 1#8
    · simp only [follows, if_true]
      rfl
    · simp only [follows, if_false]

theorem Port.countArrival_eq (q : Port) (tick : Nat) (sequence : Byte) :
    q.countArrival tick sequence = { q.recorded tick sequence with arrivalCounter := q.arrivalCounter + 1 } := by
  rw [countArrival, record_eq]

/-- R26: the arrival with which a window is too fast is the one after the W+T it allows. -/
theorem Port.countArrival_tooFast (q : Port) (tick : Nat) (sequence : Byte) :
    (q.countArrival tick sequence).tooFast = true ↔ q.arrivalCounter = q.window + q.tolerance ∧ q.windowCounter ≠ 0 := by
  have counted : (q.countArrival tick sequence).tooFast =
      (decide (q.arrivalCounter + 1 = q.window + q.tolerance + 1) && decide (0 < q.windowCounter)) := rfl
  rw [counted, Bool.and_eq_true, decide_eq_true_eq, decide_eq_true_eq]
  omega

/-- R22: the run count of an aligned framer starts again. -/
theorem Framer.restartRun_of_aligned {f : Framer} (h : f.state = .aligned) : f.restartRun = { f with runCount := 0 } := by
  simp [restartRun, isAligned, h]

namespace State

variable {s : State} {p : PortIdx} {q : Port} {r : FrameRecord} {reached : Bool}

/-- R22, R23: an arrival at a port that waits. -/
theorem portArrival_of_waiting (h : q.state = .search ∨ q.state = .lost) :
    (s.updatePort p fun _ => q).portArrival p r reached =
      s.updatePort p fun _ => if reached then q.enterQualify s.timing.tick r.sequence else q := by
  unfold portArrival
  rcases h with h | h <;> rw [updatePort_port, h] <;> cases reached <;> simp [updatePort_updatePort]

/-- R24, R26: an arrival at a port that qualifies. -/
theorem portArrival_of_qualify (h : q.state = .qualify) :
    (s.updatePort p fun _ => q).portArrival p r reached =
      if (q.countArrival s.timing.tick r.sequence).tooFast then
        (s.updatePort p fun _ => q.countArrival s.timing.tick r.sequence).failQualification p detailFast
      else s.updatePort p fun _ => q.countArrival s.timing.tick r.sequence := by
  unfold portArrival qualifyArrival
  rw [updatePort_port, h]
  dsimp only
  rw [updatePort_updatePort, updatePort_port]
  rfl

/-- R30, R31, R55: an arrival at a port in PRIME. -/
theorem portArrival_of_prime (h : q.state = .prime) :
    (s.updatePort p fun _ => q).portArrival p r reached =
      ((s.updatePort p fun _ => q.recorded s.timing.tick r.sequence).appendFrame p r).lockIfPrimed p := by
  unfold portArrival storeArrival
  rw [updatePort_port, h]
  dsimp only
  rw [updatePort_updatePort, Port.record_eq]
  rfl

/-- R31, R55: an arrival at a port in LOCKED. -/
theorem portArrival_of_locked (h : q.state = .locked) :
    (s.updatePort p fun _ => q).portArrival p r reached =
      (s.updatePort p fun _ => q.recorded s.timing.tick r.sequence).appendFrame p r := by
  unfold portArrival storeArrival
  rw [updatePort_port, h]
  dsimp only
  rw [updatePort_updatePort, Port.record_eq]
  rfl

/-- R7: an arrival, from the port its framer and its sequence check leave. -/
theorem examineArrival_eq (s : State) (p : PortIdx) (f : LaneFrame) :
    s.examineArrival p f =
      ((s.updatePort p fun _ => s.ports[p].framed f[2]).portArrival p (frameRecord f)
        (s.ports[p].framer.runCount = 2)).takeFragment p f[5] [f[6], f[7], f[8]] := by
  have framed : (s.updateFramer p Framer.takeValid).checkSequence p f[2] = s.updatePort p fun _ => s.ports[p].framed f[2] := by
    rw [checkSequence_eq, updateFramer_eq, updatePort_updatePort]
    exact s.updatePort_congr p (s.ports[p].framed_eq f[2]).symm
  rw [← framed]
  rfl

end State

end Sys2Proof.Machine

namespace Sys2Proof.Proofs
open Machine

/-- Settles O36: a rejected and a counted candidate change the framer alone, so no SWITCH waits for them; the declaring frame
is an arrival that takes the port to QUALIFY. -/
theorem confirmingFramesDeclareAlignment : Obligations.ConfirmingFramesDeclareAlignment := by
  rintro s u p elapsed f rfl enabled confirming
  generalize hu : s.elapse elapsed = u at enabled confirming
  have examines := State.confirmingAt_eq (f := f) enabled confirming
  have framerOnly : ∀ g : Framer → Framer, u.examineConfirming p f = u.updateFramer p g →
      exec (.confirmingFrame p elapsed f) s = .next (u.updateFramer p g) := fun g hg => by
    have row : exec (.confirmingFrame p elapsed f) s = .next ((s.elapse elapsed).afterLook (State.confirmingAt · p f)) := rfl
    rw [row, hu, afterLook_of_intime, examines, hg]
    rw [examines, hg]
    refine SwitchTooLate.congr rfl rfl (fun _ => rfl) rfl rfl fun j => ?_
    by_cases h : p = j
    · subst h; simp
    · simp [Fin.val_inj, h]
  refine ⟨fun invalid => ?_, fun valid first => ?_, fun valid second fresh waits => ?_⟩
  · exact framerOnly Framer.rejectCandidate (by rw [State.examineConfirming, invalid]; rfl)
  · have counted : u.updateFramer p Framer.confirmNext = _ := State.updateFramer_eq u p _
    rw [framerOnly Framer.confirmNext (by rw [State.examineConfirming, valid, first]; rfl), counted]
    refine congrArg _ (u.updatePort_congr p ?_)
    simp only [Framer.confirmNext, first]
    rfl
  · have leads := confirmingFrame_leadsTo s p elapsed f
    rw [hu, examines, State.examineConfirming, valid, second, if_pos rfl, if_neg (by decide), State.takeArrival,
      State.checkSequence_eq, State.updateFramer_eq, State.updatePort_updatePort, State.updatePort_eq_const,
      Port.checked_of_first (by exact fresh), State.portArrival_of_waiting (by exact waits), if_pos rfl] at leads
    rw [State.updatePort_eq_const]
    simp only [Framer.declareAligned, Framer.confirmNext, second] at leads
    exact leads


/-- Settles O37: the arrival is the framer's and the sequence check's update of the port, then the port's state machine by its
state, then the service field. -/
theorem arrivalsQualifyAPort : Obligations.ArrivalsQualifyAPort := by
  rintro s u p elapsed f q rfl valid enabled aligned rfl
  have leads := arrival_leadsTo s p elapsed f
  rw [State.arrivalAt_eq enabled aligned valid, State.examineArrival_eq] at leads
  generalize s.elapse elapsed = u at *
  refine ⟨fun waits => ?_, fun qualifies slow => ?_, fun qualifies full running origin => ?_,
    fun qualifies full running origin => ?_⟩
  · rw [State.portArrival_of_waiting (by exact waits)] at leads
    simp only [decide_eq_true_eq] at leads
    exact leads
  all_goals
    rw [State.portArrival_of_qualify (by exact qualifies), frameRecord_sequence] at leads
    have fast := (u.ports[p].framed f[2]).countArrival_tooFast u.timing.tick f[2]
    have restart : ((u.ports[p].framed f[2]).countArrival u.timing.tick f[2]).framer.restartRun =
        { (u.ports[p].framed f[2]).framer with runCount := 0 } := Framer.restartRun_of_aligned aligned
  · rw [if_neg (by rw [fast]; tauto), Port.countArrival_eq] at leads
    exact leads
  · rw [if_pos (fast.mpr ⟨full, running⟩), State.failQualification_of_search (by exact origin), restart] at leads
    exact leads
  · rw [if_pos (fast.mpr ⟨full, running⟩), State.failQualification_of_lost (by exact origin), restart,
      Port.countArrival_eq] at leads
    exact leads

end Sys2Proof.Proofs
end

section
/-! PROOFS. An arrival in PRIME or LOCKED: the elastic store's append, the slip of a full store, and the lock (R30, R55, R60). -/

namespace Sys2Proof.Machine.State

variable {s : State} {p : PortIdx} {q : Port} {r : FrameRecord}

/-- R55: a store with room. -/
theorem appendFrame_of_room (h : q.store.fifo.length < 8) :
    (s.updatePort p fun _ => q).appendFrame p r =
      s.updatePort p fun _ => { q with store := { q.store with fifo := q.store.fifo ++ [r] } } := by
  have full : q.store.isFull = false := decide_eq_false (Nat.not_le.mpr h)
  have room : q.store.fifo.length < Config.storeDepth := h
  unfold appendFrame
  dsimp only
  rw [updatePort_port, full, updatePort_updatePort, ElasticStore.append, if_pos room]
  rfl

/-- R55, R56: a full store drops its oldest frame, which is a slip. -/
theorem appendFrame_of_full (h : q.store.fifo.length = 8) :
    (s.updatePort p fun _ => q).appendFrame p r =
      (s.updatePort p fun _ =>
        { q with
          store := { q.store with fifo := q.store.fifo.drop 1 ++ [r] }
          counters := { q.counters with slipDrops := saturatingInc q.counters.slipDrops } }).reportSlip p detailDrop := by
  have full : q.store.isFull = true := decide_eq_true h.ge
  have noRoom : ¬q.store.fifo.length < Config.storeDepth := by simp [Config.storeDepth, h]
  unfold appendFrame
  dsimp only
  rw [updatePort_port, full, updatePort_updatePort, ElasticStore.append, if_neg noRoom, countPort_eq,
    updatePort_updatePort, if_pos rfl]

/-- R180: an alarm is clear where its bit is 0. -/
theorem and_alarmBit_eq_zero (latched : BitVec 17) (n : Fin 17) :
    latched &&& alarmBit n = 0#17 ↔ latched.getLsbD n.val = false := by
  have bit : (BitVec.twoPow 17 n.val).getLsbD n.val = true := by simp
  rw [alarmBit, BitVec.and_twoPow]
  cases latched.getLsbD n.val with
  | false => simp
  | true =>
    refine iff_of_false (fun zero => ?_) (by decide)
    rw [if_pos rfl] at zero
    rw [zero] at bit
    simp at bit

/-- R60: the SLIP alarm latches, and the event is raised where it was clear. -/
theorem reportSlip_eq (detail : Word16) :
    s.reportSlip p detail =
      { s with
        events :=
          let latched := { s.events with latched := s.events.latched ||| BitVec.twoPow 17 (4 + p.val) }
          if s.events.latched.getLsbD (4 + p.val) then latched
          else latched.raise s.timing.periodCounter .slip ⟨p.val, by omega⟩ detail } := by
  have clear := and_alarmBit_eq_zero s.events.latched (alarmSlip p)
  unfold reportSlip
  cases h : s.events.latched.getLsbD (alarmSlip p).val with
  | false =>
    rw [if_pos (clear.mpr h)]
    have h' : s.events.latched.getLsbD (4 + p.val) = false := h
    simp only [h']
    rfl
  | true =>
    rw [if_neg (by rw [clear, h]; decide)]
    have h' : s.events.latched.getLsbD (4 + p.val) = true := h
    simp only [h']
    rfl

/-- R30: short of its prime centre, a port stays in PRIME. -/
theorem lockIfPrimed_of_short (h : q.store.fifo.length < q.primeCentre) :
    (s.updatePort p fun _ => q).lockIfPrimed p = s.updatePort p fun _ => q := by
  rw [lockIfPrimed, updatePort_port, if_neg (by omega)]

/-- R30: at its prime centre, it locks. -/
theorem lockIfPrimed_of_primed (h : q.primeCentre ≤ q.store.fifo.length) :
    (s.updatePort p fun _ => q).lockIfPrimed p =
      (s.updatePort p fun _ => { q with state := .locked }).raise .portLocked (smallSubject p) 0#16 := by
  rw [lockIfPrimed, updatePort_port, if_pos h, updatePort_updatePort]

end Sys2Proof.Machine.State

namespace Sys2Proof.Proofs
open Machine

/-- Settles O38: the arrival is recorded and appended by the room of the store; in PRIME the store's fill then decides the
lock. -/
theorem arrivalsFillTheStore : Obligations.ArrivalsFillTheStore := by
  rintro s u p elapsed f q record rfl valid enabled aligned rfl rfl
  have leads := arrival_leadsTo s p elapsed f
  rw [State.arrivalAt_eq enabled aligned valid, State.examineArrival_eq] at leads
  generalize s.elapse elapsed = u at *
  refine ⟨fun stored room => ⟨?_, fun prime primed => ?_⟩, fun locked full => ?_⟩
  · intro fill
    rcases stored with locked | prime
    · rw [State.portArrival_of_locked (by exact locked), frameRecord_sequence,
        State.appendFrame_of_room (by exact room)] at leads
      exact leads
    · have short := fill.resolve_left (by rw [prime]; decide)
      rw [State.portArrival_of_prime (by exact prime), frameRecord_sequence,
        State.appendFrame_of_room (by exact room),
        State.lockIfPrimed_of_short (by rw [List.length_append]; exact short)] at leads
      exact leads
  · rw [State.portArrival_of_prime (by exact prime), frameRecord_sequence,
      State.appendFrame_of_room (by exact room), State.lockIfPrimed_of_primed (by rw [List.length_append]; exact primed)] at leads
    exact leads
  · rw [State.portArrival_of_locked (by exact locked), frameRecord_sequence,
      State.appendFrame_of_full (by exact full), State.reportSlip_eq, saturatingInc_eq] at leads
    exact leads

end Sys2Proof.Proofs
end

section
/-! PROOFS. The fragments of a message (R12, R13), and the buffer that takes them (R147, R151, R152). -/

namespace Sys2Proof.Machine

/-! ### Tags and payloads -/

theorem toNat_makeTag {kind index : Nat} (hk : kind < 8) (hi : index < 32) :
    (makeTag kind index).toNat = 32 * kind + index := by
  rw [makeTag, BitVec.toNat_ofNat, Nat.mod_eq_of_lt (by omega)]

theorem tagKind_makeTag {kind index : Nat} (hk : kind < 8) (hi : index < 32) : tagKind (makeTag kind index) = kind := by
  rw [tagKind, toNat_makeTag hk hi]
  omega

theorem tagIndex_makeTag {kind index : Nat} (hk : kind < 8) (hi : index < 32) : tagIndex (makeTag kind index) = index := by
  rw [tagIndex, toNat_makeTag hk hi]
  omega

/-- R13: a message and the zero bytes its last fragment can need. -/
def padded (bytes : List Byte) : List Byte := bytes ++ List.replicate 2 0#8

theorem length_padded (bytes : List Byte) : (padded bytes).length = bytes.length + 2 := by simp [padded]

theorem getD_eq_padded {bytes : List Byte} {i : Nat} (h : i < (padded bytes).length) :
    bytes.getD i 0#8 = (padded bytes)[i] := by
  simp only [padded, List.getElem_append]
  split
  · next inside => exact (List.getElem_eq_getD 0#8).symm
  · next beyond => rw [List.getElem_replicate, List.getD_eq_default _ _ (by omega)]

/-- R13: fragment `j` goes on where the fragments before it end. -/
theorem take_append_payload {bytes : List Byte} {j : Nat} (h : 3 * j + 3 ≤ bytes.length + 2) :
    (padded bytes).take (3 * j) ++ (fragmentOf bytes j).payload.toList = (padded bytes).take (3 * (j + 1)) := by
  have length := length_padded bytes
  have payload : (fragmentOf bytes j).payload.toList = ((padded bytes).drop (3 * j)).take 3 := by
    refine List.ext_getElem (by simp; omega) fun k hk _ => ?_
    have hk3 : k < 3 := by simpa using hk
    simp only [fragmentOf, Vector.getElem_toList, Vector.getElem_ofFn, List.getElem_take, List.getElem_drop]
    exact getD_eq_padded (by omega)
  rw [payload, Nat.mul_add, Nat.mul_one, List.take_add]

theorem payload_first {bytes : List Byte} (h : 1 ≤ bytes.length) :
    (fragmentOf bytes 0).payload.toList = (padded bytes).take 3 := by
  simpa using take_append_payload (bytes := bytes) (j := 0) (by omega)

/-! ### The buffer -/

namespace State

variable (s : State) (p : PortIdx)

/-- R147: the buffer in ASSEMBLING with the first `k` fragments of a message. -/
def assembling (bytes : List Byte) (k : Nat) : State :=
  s.setReassembly p (some { bytes := (padded bytes).take (3 * k), expected := k, silence := 0 })

theorem assembling_reassembly (bytes : List Byte) (k : Nat) :
    (s.assembling p bytes k).ports[p].reassembly =
      some { bytes := (padded bytes).take (3 * k), expected := k, silence := 0 } := by
  rw [assembling, setReassembly, updatePort_port]

theorem setReassembly_setReassembly (a b : Option PartialMessage) :
    (s.setReassembly p a).setReassembly p b = s.setReassembly p b := by
  rw [setReassembly, setReassembly, updatePort_updatePort]
  rfl

variable {s p} {bytes : List Byte} {j : Nat}

theorem setReassembly_idle (idle : s.ports[p].reassembly = none) : s.setReassembly p none = s := by
  have same : ({ s.ports[p] with reassembly := none } : Port) = s.ports[p] := by rw [← idle]
  rw [setReassembly, updatePort, updateAt_id _ _ same]

end State

/-- R13: the kind of each fragment. -/
theorem fragmentOf_tag (bytes : List Byte) (j : Nat) :
    (fragmentOf bytes j).tag =
      makeTag (if fragmentCount bytes.length ≤ 1 then 4 else if j = 0 then 1
        else if j + 1 = fragmentCount bytes.length then 3 else 2) j := rfl

namespace State
variable {s : State} {p : PortIdx} {bytes : List Byte} {j : Nat}

/-- R147: how a service field of a kind and an index is taken. -/
theorem takeFragment_makeTag (s : State) (p : PortIdx) {kind : Nat} (hk : 1 ≤ kind ∧ kind ≤ 4) (hj : j ≤ 21)
    (payload : List Byte) :
    s.takeFragment p (makeTag kind j) payload =
      if kind = 1 then s.takeFirst p j payload else if kind = 2 then s.takeMiddle p j payload
      else if kind = 3 then s.takeLast p j payload else s.takeOnly p j payload := by
  unfold takeFragment
  dsimp only
  rw [tagKind_makeTag (by omega) (by omega), tagIndex_makeTag (by omega) (by omega), if_neg (by omega), if_neg (by omega),
    if_neg (by rw [Config.lastFragmentIndex]; omega)]

/-- R147: FIRST, at an idle buffer. -/
theorem takeFragment_first (idle : s.ports[p].reassembly = none) (long : 1 < fragmentCount bytes.length) :
    s.takeFragment p (fragmentOf bytes 0).tag (fragmentOf bytes 0).payload.toList = s.assembling p bytes 1 := by
  have count : fragmentCount bytes.length = (bytes.length + 2) / 3 := rfl
  rw [fragmentOf_tag, if_neg (by omega), if_pos rfl, takeFragment_makeTag s p (by decide) (by decide), if_pos rfl,
    takeFirst, if_pos rfl, dropPartial, idle, payload_first (by omega)]
  rfl

/-- R147: MIDDLE, at the index expected. -/
theorem takeFragment_middle (hj : 1 ≤ j) (more : j + 1 < fragmentCount bytes.length)
    (short : fragmentCount bytes.length ≤ 22) :
    (s.assembling p bytes j).takeFragment p (fragmentOf bytes j).tag (fragmentOf bytes j).payload.toList =
      s.assembling p bytes (j + 1) := by
  have count : fragmentCount bytes.length = (bytes.length + 2) / 3 := rfl
  rw [fragmentOf_tag, if_neg (by omega), if_neg (by omega), if_neg (by omega), takeFragment_makeTag _ p (by decide)
    (by omega), if_neg (by decide), if_pos rfl, takeMiddle, assembling_reassembly]
  dsimp only
  rw [if_pos rfl, take_append_payload (by omega), assembling, setReassembly_setReassembly, assembling]

/-- R147: LAST, at the index expected. -/
theorem takeFragment_last (idle : s.ports[p].reassembly = none) (hj : 1 ≤ j) (last : j + 1 = fragmentCount bytes.length)
    (short : fragmentCount bytes.length ≤ 22) :
    (s.assembling p bytes j).takeFragment p (fragmentOf bytes j).tag (fragmentOf bytes j).payload.toList =
      s.completeMessage p ((padded bytes).take (3 * fragmentCount bytes.length)) := by
  have count : fragmentCount bytes.length = (bytes.length + 2) / 3 := rfl
  rw [fragmentOf_tag, if_neg (by omega), if_neg (by omega), if_pos last, takeFragment_makeTag _ p (by decide)
    (by omega), if_neg (by decide), if_neg (by decide), if_pos rfl, takeLast, assembling_reassembly]
  dsimp only
  rw [if_pos rfl, take_append_payload (by omega), assembling, setReassembly_setReassembly, setReassembly_idle idle, last]

/-- R147: ONLY, at an idle buffer. -/
theorem takeFragment_only (idle : s.ports[p].reassembly = none) (one : fragmentCount bytes.length = 1) :
    s.takeFragment p (fragmentOf bytes 0).tag (fragmentOf bytes 0).payload.toList =
      s.completeMessage p ((padded bytes).take (3 * fragmentCount bytes.length)) := by
  have count : fragmentCount bytes.length = (bytes.length + 2) / 3 := rfl
  rw [fragmentOf_tag, if_pos (by omega), takeFragment_makeTag s p (by decide) (by decide), if_neg (by decide),
    if_neg (by decide), if_neg (by decide), takeOnly, if_pos rfl, dropPartial, idle, payload_first (by omega), one]
  dsimp only [Option.isSome]
  rw [if_neg (by decide), setReassembly_idle idle]

/-- R147: the buffer with all but the last of a message's fragments. -/
theorem takeFragments_assembling (idle : s.ports[p].reassembly = none) (short : fragmentCount bytes.length ≤ 22) (k : Nat)
    (hk : k + 1 < fragmentCount bytes.length) :
    (List.range (k + 1)).foldl
        (fun x j => x.takeFragment p (fragmentOf bytes j).tag (fragmentOf bytes j).payload.toList) s =
      s.assembling p bytes (k + 1) := by
  induction k with
  | zero => simpa using takeFragment_first idle hk
  | succ k ih =>
    rw [List.range_succ, List.foldl_append, ih (by omega)]
    exact takeFragment_middle (by omega) hk short

/-- R147: all the fragments of a message complete it. -/
theorem takeFragments_complete (idle : s.ports[p].reassembly = none) (some : 1 ≤ fragmentCount bytes.length)
    (short : fragmentCount bytes.length ≤ 22) :
    (List.range (fragmentCount bytes.length)).foldl
        (fun x j => x.takeFragment p (fragmentOf bytes j).tag (fragmentOf bytes j).payload.toList) s =
      s.completeMessage p ((padded bytes).take (3 * fragmentCount bytes.length)) := by
  obtain one | ⟨k, hk⟩ : fragmentCount bytes.length = 1 ∨ ∃ k, fragmentCount bytes.length = k + 2 := by
    rcases h : fragmentCount bytes.length with _ | _ | k
    · omega
    · exact .inl rfl
    · exact .inr ⟨k, rfl⟩
  · rw [← takeFragment_only idle one, one]
    rfl
  · have assembled := takeFragments_assembling idle short k (by omega)
    have last := takeFragment_last (j := k + 1) idle (by omega) hk.symm short
    rw [← last, ← assembled, hk, List.range_succ, List.foldl_append]
    rfl

/-- R151, R152: a message of good length, with the zero bytes behind it, joins the command queue. -/
theorem completeMessage_padded (long : 3 ≤ bytes.length) (short : bytes.length ≤ 64)
    (counted : (bytes.getD 0 0#8).toNat = bytes.length) (room : s.channel.queue.length < 8) :
    s.completeMessage p ((padded bytes).take (3 * fragmentCount bytes.length)) =
      { s with channel := { s.channel with queue := s.channel.queue ++ [⟨p, bytes⟩] } } := by
  have count : fragmentCount bytes.length = (bytes.length + 2) / 3 := rfl
  have length := length_padded bytes
  have first : (((padded bytes).take (3 * fragmentCount bytes.length)).getD 0 0#8).toNat = bytes.length := by
    have inside : 0 < ((padded bytes).take (3 * fragmentCount bytes.length)).length := by
      rw [List.length_take]
      omega
    rw [← List.getElem_eq_getD (h := inside), List.getElem_take, ← getD_eq_padded, counted]
  have message : ((padded bytes).take (3 * fragmentCount bytes.length)).take bytes.length = bytes := by
    rw [List.take_take, Nat.min_eq_left (by omega), padded, List.take_left]
  unfold completeMessage
  dsimp only
  rw [first, if_neg (by omega), if_neg (by simp; omega), message, queueMessage, if_pos (by exact room)]
  rfl

end State

end Sys2Proof.Machine

namespace Sys2Proof.Proofs
open Machine

/-- Settles O44: the fragments fill the buffer one after another, and the last completes the message, whose length is good. -/
theorem fragmentsOfAMessageReassemble : Obligations.FragmentsOfAMessageReassemble := by
  rintro s p ⟨source, bytes⟩ formed rfl idle room
  simp only [Message.wellFormed, Bool.and_eq_true, decide_eq_true_eq] at formed
  obtain ⟨⟨long, short⟩, counted⟩ := formed
  have count : fragmentCount bytes.length = (bytes.length + 2) / 3 := rfl
  dsimp only at *
  exact (State.takeFragments_complete idle (by omega) (by omega)).trans
    (State.completeMessage_padded long short counted room)

end Sys2Proof.Proofs
end

section
/-! PROOFS. The bytes of an egress frame (Table 3) and its check bytes (R2), bit by bit. -/

namespace Sys2Proof.Machine

/-! ### The CRC, one bit at a time -/

/-- R2: the register takes one bit of the covered bytes. -/
def crcBit (c : Word16) (bit : Bool) : Word16 := (c <<< 1) ^^^ (if c.getLsbD 15 != bit then 0x1021#16 else 0#16)

/-- The register's advance with pending bits `d` in it takes the topmost of them, and the others move up. -/
theorem crcShift_xor (c d : Word16) : crcShift (c ^^^ d) = crcBit c (d.getLsbD 15) ^^^ (d <<< 1) := by
  have top : (c ^^^ d).msb = (c.getLsbD 15 != d.getLsbD 15) := by
    rw [BitVec.msb_xor, BitVec.msb_eq_getLsbD_last, BitVec.msb_eq_getLsbD_last]
  unfold crcShift crcBit
  rw [top, BitVec.shiftLeft_xor_distrib]
  split
  · ac_rfl
  · rw [BitVec.xor_zero]

/-- Any number of advances takes as many of the pending bits. -/
theorem crcShift_iterate_xor (c d : Word16) (n : Nat) :
    crcShift^[n] (c ^^^ d) = ((List.range n).map fun j => (d <<< j).getLsbD 15).foldl crcBit c ^^^ (d <<< n) := by
  induction n with
  | zero => simp
  | succ n ih =>
    rw [Function.iterate_succ_apply', ih, crcShift_xor, List.range_succ, List.map_append, List.foldl_append,
      BitVec.shiftLeft_add]
    rfl

/-- R2: a byte enters the register bit by bit, most significant bit first. -/
theorem crcByte_eq_bits (c : Word16) (b : Byte) :
    crcByte c b = ((List.range 8).map fun j => b.getLsbD (7 - j)).foldl crcBit c := by
  have bits : ((List.range 8).map fun j => ((b ++ 0#8 : Word16) <<< j).getLsbD 15) =
      (List.range 8).map fun j => b.getLsbD (7 - j) := by
    refine List.map_congr_left fun j hj => ?_
    have inside := List.mem_range.mp hj
    have place : 15 - j - 8 = 7 - j := by omega
    rw [BitVec.getLsbD_shiftLeft, BitVec.getLsbD_append, if_neg (by omega), place]
    simp
    omega
  have gone : (b ++ 0#8 : Word16) <<< 8 = 0#16 := by
    refine BitVec.eq_of_getLsbD_eq fun i hi => ?_
    have low : i - 8 < 8 := by omega
    rw [BitVec.getLsbD_shiftLeft, BitVec.getLsbD_append, if_pos low]
    simp
  have byte : crcByte c b = crcShift^[8] (c ^^^ (b ++ 0#8)) := rfl
  rw [byte, crcShift_iterate_xor, gone, BitVec.xor_zero, bits]

/-- R2: the check register over bytes, as the bits of all of them. -/
theorem crc_eq_bits (bytes : List Byte) :
    crc bytes = (bytes.flatMap fun b => (List.range 8).map fun j => b.getLsbD (7 - j)).foldl crcBit 0xFFFF#16 := by
  rw [crc, List.foldl_flatMap]
  congr 1
  funext c b
  exact crcByte_eq_bits c b

/-! ### The bytes of a frame -/

section
variable (sequence : Byte) (valid : Word16) (field : ServiceField) (samples : Vector Sample 16)

/-- R2: the check value of a frame, over bytes 2 to 56. -/
def frameCheck : Word16 := crc (Vector.ofFn (bodyByte sequence valid field samples)).toList

/-- R18: bytes 2 to 56. -/
theorem buildFrame_body {i : Nat} (low : 2 ≤ i) (high : i < 57) :
    (buildFrame sequence valid field samples)[i] = bodyByte sequence valid field samples ⟨i - 2, by omega⟩ := by
  have h0 : i ≠ 0 := by omega
  have h1 : i ≠ 1 := by omega
  simp [buildFrame, h0, h1, high]

theorem crcCovered_buildFrame :
    crcCovered (buildFrame sequence valid field samples) =
      (Vector.ofFn (bodyByte sequence valid field samples)).toList := by
  refine List.ext_getElem (by simp [crcCovered]) fun i hi hi' => ?_
  have high : i < 55 := by simpa using hi'
  have body := buildFrame_body sequence valid field samples (i := 2 + i) (by omega) (by omega)
  simp [crcCovered, body]

theorem buildFrame_marker_high : (buildFrame sequence valid field samples)[0] = Config.markerHigh := by
  simp [buildFrame]

theorem buildFrame_marker_low : (buildFrame sequence valid field samples)[1] = Config.markerLow := by
  simp [buildFrame]

theorem buildFrame_check_high :
    (buildFrame sequence valid field samples)[57] = (frameCheck sequence valid field samples).extractLsb' 8 8 := by
  simp [buildFrame, frameCheck]

theorem buildFrame_check_low :
    (buildFrame sequence valid field samples)[58] = (frameCheck sequence valid field samples).extractLsb' 0 8 := by
  simp [buildFrame, frameCheck]

/-- R134: byte `n` of the sample of slot `k`. -/
theorem buildFrame_sample (k : Fin 16) {n i : Nat} (hn : n < 3) (hi : i = 9 + 3 * k.val + n) :
    (buildFrame sequence valid field samples)[i] = sampleByte samples[k] n := by
  rw [buildFrame_body _ _ _ _ (by omega) (by omega), bodyByte]
  have slot : (i - 2 - 7) / 3 = k.val := by omega
  have place : (i - 2 - 7) % 3 = n := by omega
  simp only [slot, place]
  rw [if_neg (by omega), if_neg (by omega), if_neg (by omega), if_neg (by omega), dif_neg (by omega)]
  rfl

end

/-! ### Words as their bytes -/

theorem word_eq_bytes (w : Word16) : w.extractLsb' 8 8 ++ w.extractLsb' 0 8 = w := by
  refine BitVec.eq_of_getLsbD_eq fun i hi => ?_
  rw [BitVec.getLsbD_append]
  split
  · next low => simp [low]
  · next high =>
    have place : 8 + (i - 8) = i := by omega
    simp [place]
    omega

theorem sample_eq_bytes (x : Sample) : (sampleByte x 0 ++ sampleByte x 1 : BitVec 16) ++ sampleByte x 2 = x := by
  refine BitVec.eq_of_getLsbD_eq fun i hi => ?_
  rw [BitVec.getLsbD_append]
  split
  · next low => simp [sampleByte, low]
  · next high =>
    rw [BitVec.getLsbD_append]
    split
    · next middle =>
      have place : 8 + (i - 8) = i := by omega
      simp [sampleByte, place, middle]
    · next high =>
      have place : 16 + (i - 8 - 8) = i := by omega
      simp [sampleByte, place]
      omega

theorem toNat_word_bytes (w : Word16) :
    (w.extractLsb' 8 8).toNat = w.toNat / 256 ∧ (w.extractLsb' 0 8).toNat = w.toNat % 256 := by
  have := w.isLt
  simp [BitVec.extractLsb'_toNat, Nat.shiftRight_eq_div_pow]
  omega

theorem toNat_sampleByte (x : Sample) :
    (sampleByte x 0).toNat = x.toNat / 65536 ∧ (sampleByte x 1).toNat = x.toNat / 256 % 256 ∧
      (sampleByte x 2).toNat = x.toNat % 256 := by
  have := x.isLt
  simp [sampleByte, BitVec.extractLsb'_toNat, Nat.shiftRight_eq_div_pow]
  omega

/-! ### The fields of a frame -/

section
variable (sequence : Byte) (valid : Word16) (field : ServiceField) (samples : Vector Sample 16)

theorem frameValid_buildFrame : frameValid (buildFrame sequence valid field samples) = true := by
  have check : crcCorrect (buildFrame sequence valid field samples) = true := by
    rw [crcCorrect, decide_eq_true_eq, crcCovered_buildFrame, buildFrame_check_high, buildFrame_check_low, word_eq_bytes,
      frameCheck]
  have marker : markerPresent (buildFrame sequence valid field samples) = true := by
    rw [markerPresent, buildFrame_marker_high, buildFrame_marker_low]
    rfl
  rw [frameValid, check, marker]
  rfl

theorem frameSequence_buildFrame : frameSequence (buildFrame sequence valid field samples) = sequence :=
  buildFrame_body sequence valid field samples (by decide) (by decide)

theorem buildFrame_map_high : (buildFrame sequence valid field samples)[3] = valid.extractLsb' 8 8 :=
  buildFrame_body sequence valid field samples (by decide) (by decide)

theorem buildFrame_map_low : (buildFrame sequence valid field samples)[4] = valid.extractLsb' 0 8 :=
  buildFrame_body sequence valid field samples (by decide) (by decide)

theorem frameTag_buildFrame : frameTag (buildFrame sequence valid field samples) = field.tag :=
  buildFrame_body sequence valid field samples (by decide) (by decide)

theorem frameValidMap_buildFrame : frameValidMap (buildFrame sequence valid field samples) = valid := by
  rw [frameValidMap, buildFrame_map_high, buildFrame_map_low, word_eq_bytes]

/-- R12: the payload of the service field. -/
theorem buildFrame_payload (k : Fin 3) : (buildFrame sequence valid field samples)[6 + k.val] = field.payload[k] := by
  rw [buildFrame_body _ _ _ _ (by omega) (by omega), bodyByte]
  have place : 6 + k.val - 2 - 4 = k.val := by omega
  simp only [place]
  rw [if_neg (by omega), if_neg (by omega), if_neg (by omega), if_neg (by omega), dif_pos (by omega)]
  rfl

theorem framePayload_buildFrame : framePayload (buildFrame sequence valid field samples) = field.payload.toList := by
  have bytes := buildFrame_payload sequence valid field samples
  have listed : framePayload (buildFrame sequence valid field samples) =
      [field.payload[0], field.payload[1], field.payload[2]] := by
    rw [framePayload]
    exact congrArg₂ _ (bytes 0) (congrArg₂ _ (bytes 1) (congrArg₂ _ (bytes 2) rfl))
  rw [listed]
  refine List.ext_getElem (by simp) fun i hi _ => ?_
  obtain rfl | rfl | rfl : i = 0 ∨ i = 1 ∨ i = 2 := by
    simp only [List.length_cons, List.length_nil] at hi
    omega
  all_goals rfl

theorem frameSample_buildFrame (k : Fin 16) : frameSample (buildFrame sequence valid field samples) k = samples[k] := by
  rw [frameSample, buildFrame_sample _ _ _ _ k (n := 0) (by decide) (by omega),
    buildFrame_sample _ _ _ _ k (n := 1) (by decide) (by omega),
    buildFrame_sample _ _ _ _ k (n := 2) (by decide) (by omega), sample_eq_bytes]

/-- R2: the check bytes, bit by bit. -/
theorem buildFrame_check :
    (buildFrame sequence valid field samples)[57] ++ (buildFrame sequence valid field samples)[58] =
      (((buildFrame sequence valid field samples).toList.drop 2).take 55 |>.flatMap fun b =>
        (List.range 8).map fun j => b.getLsbD (7 - j)).foldl crcBit 0xFFFF#16 := by
  have covered := crcCovered_buildFrame sequence valid field samples
  rw [crcCovered] at covered
  rw [covered, ← crc_eq_bits, buildFrame_check_high, buildFrame_check_low, word_eq_bytes, frameCheck]

/-- R134: the three bytes of a sample, as numbers. -/
theorem toNat_buildFrame_sample (k : Fin 16) :
    ((buildFrame sequence valid field samples)[9 + 3 * k.val]).toNat = samples[k].toNat / 65536 ∧
      ((buildFrame sequence valid field samples)[10 + 3 * k.val]).toNat = samples[k].toNat / 256 % 256 ∧
      ((buildFrame sequence valid field samples)[11 + 3 * k.val]).toNat = samples[k].toNat % 256 := by
  rw [buildFrame_sample _ _ _ _ k (n := 0) (by decide) (by omega),
    buildFrame_sample _ _ _ _ k (n := 1) (by decide) (by omega),
    buildFrame_sample _ _ _ _ k (n := 2) (by decide) (by omega)]
  exact toNat_sampleByte _

end

end Sys2Proof.Machine

namespace Sys2Proof.Proofs
open Machine

/-- Settles O45: each byte of the frame by its place, the check bytes bit by bit, and each field by the bytes it is cut into. -/
theorem egressFramesReadBack : Obligations.EgressFramesReadBack := by
  rintro sequence valid field samples f shift rfl bits
  obtain rfl : shift = crcBit := by
    funext c bit
    exact bits c bit
  have map := toNat_word_bytes valid
  rw [← buildFrame_map_high sequence valid field samples, ← buildFrame_map_low sequence valid field samples] at map
  have payload := buildFrame_payload sequence valid field samples
  exact ⟨buildFrame_marker_high .., buildFrame_marker_low .., frameSequence_buildFrame .., map.1, map.2,
    frameTag_buildFrame .., payload 0, payload 1, payload 2, toNat_buildFrame_sample sequence valid field samples, buildFrame_check ..,
    frameValid_buildFrame .., frameSequence_buildFrame .., frameValidMap_buildFrame .., frameTag_buildFrame ..,
    framePayload_buildFrame .., frameSample_buildFrame sequence valid field samples⟩

end Sys2Proof.Proofs
end

section
/-! PROOFS. A message fully sent or given up by its transmitter (R157), and EGRESS_CONFIG (R20). -/

namespace Sys2Proof.Machine

/-- R157: a message is fully sent where the boundary is still to be taken and no fragment is left. -/
theorem Egress.fullySent_eq_some {y : Egress} {x : Sending} :
    y.fullySent = some x ↔ y.transmitter = some x ∧ y.serviceDue = true ∧ (x.bytes.length + 2) / 3 ≤ x.next := by
  unfold fullySent
  cases y.transmitter with
  | none => simp
  | some z =>
    dsimp only
    split
    · next sent =>
      rw [Bool.and_eq_true, Sending.exhausted, decide_eq_true_eq, fragmentCount] at sent
      simp only [Option.some.injEq]
      constructor
      · rintro rfl; exact ⟨rfl, sent⟩
      · exact fun h => h.1
    · next unsent =>
      rw [Bool.and_eq_true, Sending.exhausted, decide_eq_true_eq, fragmentCount] at unsent
      simp only [reduceCtorEq, Option.some.injEq, false_iff]
      rintro ⟨rfl, sent⟩
      exact unsent sent

theorem Egress.fullySent_of_idle {y : Egress} (h : y.transmitter = none) : y.fullySent = none := by
  unfold fullySent
  rw [h]

theorem Egress.fullySent_of_sending {y : Egress} {x : Sending} (h : y.transmitter = some x)
    (left : y.serviceDue = true → x.next < (x.bytes.length + 2) / 3) : y.fullySent = none := by
  by_contra sent
  obtain ⟨z, hz⟩ := Option.ne_none_iff_exists'.mp sent
  obtain ⟨hz, due, done⟩ := fullySent_eq_some.mp hz
  obtain rfl : x = z := by simpa [h] using hz
  have := left due
  omega

namespace State

variable {s : State} {e : PortIdx}

theorem updateEgress_updateEgress (s : State) (e : PortIdx) (f g : Egress → Egress) :
    (s.updateEgress e f).updateEgress e g = s.updateEgress e fun y => g (f y) := by
  simp only [updateEgress, updateAt_updateAt]

theorem updateEgress_congr {f g : Egress → Egress} (h : f s.egress[e] = g s.egress[e]) :
    s.updateEgress e f = s.updateEgress e g := by
  simp only [updateEgress, updateAt_congr _ _ h]

theorem updateEgress_egress_self (s : State) (e : PortIdx) (f : Egress → Egress) :
    (s.updateEgress e f).egress[e] = f s.egress[e] :=
  updateAt_get_self s.egress e f

@[simp] theorem messageEffect_egress (s : State) (origin : MessageOrigin) : (s.messageEffect origin).egress = s.egress := by
  cases origin <;> rfl

theorem completeSending_of_unsent (h : s.egress[e].fullySent = none) : s.completeSending e = s := by
  rw [completeSending, h]

theorem completeSending_of_sent {x : Sending} (h : s.egress[e].fullySent = some x) :
    s.completeSending e = (s.updateEgress e fun y => { y with transmitter := none }).messageEffect x.origin := by
  rw [completeSending, h]

theorem completeSending_transmitter {x : Sending} (h : s.egress[e].fullySent = some x) :
    (s.completeSending e).egress[e] = { s.egress[e] with transmitter := none } := by
  rw [completeSending_of_sent h, messageEffect_egress, updateEgress_egress_self]

theorem abandonSending_of_idle (h : s.egress[e].transmitter = none) : s.abandonSending e = s := by
  rw [abandonSending, h]

/-- R157: what giving up a message brings about, by what it is. -/
def abandonEffect (s : State) : MessageOrigin → State
  | .response => s
  | .softReset => s
  | .report n => s.updateEvents (EventUnit.abandonTransmission n)

theorem abandonSending_of_sending {x : Sending} (h : s.egress[e].transmitter = some x) :
    s.abandonSending e = s.abandonEffect x.origin := by
  obtain ⟨bytes, next, origin⟩ := x
  rw [abandonSending, h]
  cases origin <;> rfl

end State

/-! ### EGRESS_CONFIG -/

variable {s t : State} {m : Message}

/-- R14, R155: an answer without results, placed where there is room. -/
theorem deliver_answer (status : Status) (room : t.egress[m.source].responses.length < 4) :
    (answer t status).deliver m = t.answered m (statusByte status) [] :=
  respond_eq room status [] .response

/-- R20: an EGRESS_CONFIG whose arguments are in range. -/
theorem egressConfigRule_eq {e : PortIdx} {enable : Bool} (length : messageLength m = 5) (port : argByte m 3 = e.val)
    (flag : argByte m 4 = if enable then 1 else 0) :
    egressConfigRule m s =
      if enable = false ∧ e = s.channel.control then answer s .badArg
      else if enable then answer (enableEgress s e) .ok else answer (disableEgress s e) .ok := by
  rw [egressConfigRule, argFin_eq.mpr port, argBool_eq.mpr flag]
  simp [length]

theorem enableEgress_of_enabled {e : PortIdx} (h : s.egress[e].enabled = true) : enableEgress s e = s := by
  rw [enableEgress, if_pos h]

theorem disableEgress_of_disabled {e : PortIdx} (h : s.egress[e].enabled = false) : disableEgress s e = s := by
  rw [disableEgress, h, if_neg (by decide)]

/-- R157: what becomes of the message a disabled port's transmitter holds: it is fully sent, or given up. -/
def State.messageEnded (s : State) (e : PortIdx) : State :=
  match s.egress[e].transmitter with
  | none => s
  | some x =>
    if s.egress[e].serviceDue = true ∧ (x.bytes.length + 2) / 3 ≤ x.next then s.messageEffect x.origin
    else s.abandonEffect x.origin

/-- R20, R157: a disable, by what the transmitter holds. -/
theorem disableEgress_eq {e : PortIdx} (h : s.egress[e].enabled = true) :
    disableEgress s e =
      { s.messageEnded e with
        egress := updateAt s.egress e fun y =>
          { y with enabled := false, responses := [], transmitter := none, lane := none } } := by
  unfold State.messageEnded
  rw [disableEgress, if_pos h]
  cases hx : s.egress[e].transmitter with
  | none =>
    rw [State.completeSending_of_unsent (Egress.fullySent_of_idle hx), State.abandonSending_of_idle hx]
    rfl
  | some x =>
    dsimp only
    split
    · next sent =>
      have full := Egress.fullySent_eq_some.mpr ⟨hx, sent⟩
      rw [State.abandonSending_of_idle (by rw [State.completeSending_transmitter full]),
        State.completeSending_of_sent full]
      cases x.origin <;>
        simp [State.messageEffect, State.updateEgress, State.updateChannel, State.updateEvents, updateAt_updateAt]
    · next left =>
      have unsent : s.egress[e].fullySent = none :=
        Egress.fullySent_of_sending hx fun due => by
          by_contra done
          exact left ⟨due, by omega⟩
      rw [State.completeSending_of_unsent unsent, State.abandonSending_of_sending hx]
      cases x.origin <;> rfl

end Sys2Proof.Machine

namespace Sys2Proof.Proofs
open Machine

/-- Settles O11: the row is the owning rule on the state in which the processor has taken the command; the control port's reply
keeps its room, since the port configured is another. -/
theorem egressConfigEnablesAndDisables : Obligations.EgressConfigEnablesAndDisables := by
  intro s v older newer m e enable turn control code length port flag
  have rule := egressConfigRule_eq (s := s.taken older newer) length port flag
  have row : exec (.egressConfig m) s = .next ((egressConfigRule m (s.taken older newer)).deliver m) := by
    have command := executeCommand_of_turn turn code .controlOnly (egressConfigRule m)
    rw [judge_control (by exact control)] at command
    exact congrArg Host.Outcome.next command
  rw [row, rule]
  have elsewhere : e ≠ s.channel.control → ∀ f, (updateAt s.egress e f)[m.source].responses.length < 4 := fun other f => by
    rw [updateAt_get_ne _ _ (control ▸ other)]
    exact turn.room
  refine ⟨fun same allowed => ?_, fun disabled on other => ?_, fun enabled off other hv => ?_, fun off own => ?_⟩
  · cases enable with
    | true =>
      rw [if_neg (by simp), if_pos rfl, enableEgress_of_enabled (by exact same)]
      exact congrArg _ (deliver_answer .ok turn.room)
    | false =>
      rw [if_neg (by simpa using allowed), if_neg (by decide), disableEgress_of_disabled (by exact same)]
      exact congrArg _ (deliver_answer .ok turn.room)
  · subst on
    rw [if_neg (by simp), if_pos rfl, enableEgress, taken_egress, disabled, if_neg (by decide)]
    exact congrArg _ (deliver_answer .ok (elsewhere other _))
  · subst off
    obtain rfl : v = (s.taken older newer).messageEnded e := by
      rw [hv, State.messageEnded, taken_egress]
      cases s.egress[e].transmitter with
      | none => rfl
      | some x =>
        obtain ⟨bytes, next, origin⟩ := x
        cases origin <;> rfl
    rw [if_neg (by simp [other]), if_neg (by decide), disableEgress_eq (by exact enabled)]
    exact congrArg _ (deliver_answer .ok (elsewhere other _))
  · rw [if_pos ⟨off, own⟩]
    exact congrArg _ (deliver_answer .badArg turn.room)

end Sys2Proof.Proofs
end

section
/-! PROOFS. The service transmitters and the egress frames (R17, R18, R157, R173). -/

namespace Sys2Proof.Machine

namespace State

variable {s : State} {e : PortIdx}

/-! ### Completion of a message, once -/

/-- A completion touches its egress port's transmitter alone, of the egress ports. -/
theorem completeSending_egress_self :
    ∃ transmitter, (s.completeSending e).egress[e] = { s.egress[e] with transmitter := transmitter } := by
  cases h : s.egress[e].fullySent with
  | none => exact ⟨s.egress[e].transmitter, by rw [completeSending_of_unsent h]⟩
  | some x => exact ⟨none, completeSending_transmitter h⟩

theorem completeSending_enabled : (s.completeSending e).egress[e].enabled = s.egress[e].enabled := by
  obtain ⟨transmitter, h⟩ := completeSending_egress_self (s := s) (e := e)
  rw [h]

theorem completeSending_serviceDue : (s.completeSending e).egress[e].serviceDue = s.egress[e].serviceDue := by
  obtain ⟨transmitter, h⟩ := completeSending_egress_self (s := s) (e := e)
  rw [h]

theorem completeSending_completeSending : (s.completeSending e).completeSending e = s.completeSending e := by
  cases h : s.egress[e].fullySent with
  | none => rw [completeSending_of_unsent h, completeSending_of_unsent h]
  | some x => exact completeSending_of_unsent (Egress.fullySent_of_idle (by rw [completeSending_transmitter h]))

theorem completeSending_of_taken (h : s.egress[e].serviceDue = false) : s.completeSending e = s := by
  refine completeSending_of_unsent ?_
  by_contra sent
  obtain ⟨x, hx⟩ := Option.ne_none_iff_exists'.mp sent
  obtain ⟨-, due, -⟩ := Egress.fullySent_eq_some.mp hx
  exact absurd (h.symm.trans due) (by decide)

/-! ### The transmitter's turn -/

theorem ensureTransmitter_of_taken (h : s.egress[e].serviceDue = false) : s.ensureTransmitter e = s := by
  rw [ensureTransmitter, h, if_neg (by decide)]

theorem ensureTransmitter_of_disabled (due : s.egress[e].serviceDue = true) (off : s.egress[e].enabled = false) :
    s.ensureTransmitter e = s.updateEgress e Egress.pass := by
  rw [ensureTransmitter, if_pos due, takeTransmitter, off, if_neg (by decide)]

theorem ensureTransmitter_of_unsent (due : s.egress[e].serviceDue = true) (on : s.egress[e].enabled = true)
    (unsent : s.egress[e].fullySent = none) :
    s.ensureTransmitter e = (s.pickMessage e).updateEgress e Egress.serve := by
  rw [ensureTransmitter, if_pos due, takeTransmitter, if_pos on, completeSending_of_unsent unsent]

/-- R157: the completion that a transmitter's turn begins with can come before it. -/
theorem ensureTransmitter_completeSending (on : s.egress[e].enabled = true) :
    (s.completeSending e).ensureTransmitter e = s.ensureTransmitter e := by
  by_cases due : s.egress[e].serviceDue = true
  · rw [ensureTransmitter, completeSending_serviceDue, if_pos due, takeTransmitter, completeSending_enabled, if_pos on,
      completeSending_completeSending, ensureTransmitter, if_pos due, takeTransmitter, if_pos on]
  · rw [completeSending_of_taken (by simpa using due)]

theorem ensureTransmitter_turn (v : State) (e : PortIdx) : (v.ensureTransmitter e).channel.turn = v.channel.turn := by
  unfold ensureTransmitter
  split
  · obtain ⟨f, processor, events, h⟩ := v.takeTransmitter_writes e
    rw [h]
  · rfl

/-- Once it is taken, the turn is spent. -/
theorem ensureTransmitter_serviceDue (v : State) (e : PortIdx) : (v.ensureTransmitter e).egress[e].serviceDue = false := by
  unfold ensureTransmitter takeTransmitter
  split
  · split <;> rw [updateEgress_egress_self] <;> rfl
  · next taken => simpa using taken

/-! ### The transmitter's row, and the look before it -/

/-- With no message to complete, the row is the turn, after a look where one must come first. -/
theorem transmitterWork_of_unsent (unsent : s.egress[e].enabled = true → s.egress[e].fullySent = none) :
    s.transmitterWork e = s.afterLook (ensureTransmitter · e) := by
  unfold transmitterWork
  split
  · next on => rw [completeSending_of_unsent (unsent on)]
  · rfl

/-- Once the processor has looked, the row is the turn. -/
theorem transmitterWork_of_spent (spent : s.channel.turn = false) : s.transmitterWork e = s.ensureTransmitter e := by
  have intime : ∀ v : State, v.channel.turn = false → v.afterLook (ensureTransmitter · e) = v.ensureTransmitter e :=
    fun v hv => afterLook_of_intime fun late =>
      absurd late (not_switchTooLate_of_spent ((ensureTransmitter_turn v e).trans hv))
  unfold transmitterWork
  split
  · next on =>
    obtain ⟨f, processor, events, h⟩ := s.completeSending_writes e
    rw [intime _ (by rw [h]; exact spent), ensureTransmitter_completeSending on]
  · exact intime s spent

theorem transmitterWork_of_taken (h : s.egress[e].serviceDue = false) : s.transmitterWork e = s := by
  have unsent : s.completeSending e = s := completeSending_of_taken h
  rw [transmitterWork, unsent, ite_self, afterLook_of_intime] <;> rw [ensureTransmitter_of_taken h]
  exact id

/-- R157: the completion before the row leaves the row as it is. -/
theorem transmitterWork_completeSending (on : s.egress[e].enabled = true) :
    (s.completeSending e).transmitterWork e = s.transmitterWork e := by
  rw [transmitterWork, completeSending_enabled, if_pos on, completeSending_completeSending, transmitterWork, if_pos on]

theorem exec_transmitter (s : State) (e : PortIdx) :
    exec (.boundary (.only (.transmitter e))) s = .next (s.transmitterWork e) := rfl

theorem exec_frame (s : State) (e : PortIdx) : exec (.boundary (.only (.frame e))) s = .next (s.frameWork e) := rfl

/-- R154: the row of a transmitter with nothing to complete leads to what its turn does. -/
theorem transmitter_leadsTo (unsent : s.egress[e].enabled = true → s.egress[e].fullySent = none) :
    LeadsTo (.boundary (.only (.transmitter e))) s (s.ensureTransmitter e) :=
  leadsTo_of_afterLook (event := (ensureTransmitter · e)) (by rw [exec_transmitter, transmitterWork_of_unsent unsent])
    fun v spent => by rw [exec_transmitter, transmitterWork_of_spent spent]

/-- Where the turn frees no place of a response queue, no look must come before it. -/
theorem transmitterWork_of_room {f : Egress → Egress} {events : EventUnit}
    (unsent : s.egress[e].enabled = true → s.egress[e].fullySent = none)
    (turn : s.ensureTransmitter e = { s with egress := updateAt s.egress e f, events := events })
    (room : (f s.egress[e]).responses = s.egress[e].responses) :
    s.transmitterWork e = { s with egress := updateAt s.egress e f, events := events } := by
  rw [transmitterWork_of_unsent unsent, afterLook_of_intime, turn]
  rw [turn]
  refine SwitchTooLate.congr rfl rfl (fun j => ?_) rfl rfl fun _ => rfl
  by_cases h : e = j
  · subst h
    exact (congrArg _ (updateAt_get_self s.egress e f)).trans room
  · exact congrArg _ (updateAt_get_ne s.egress f h)

/-! ### What an idle transmitter picks -/

theorem pickMessage_of_sending {x : Sending} (h : s.egress[e].transmitter = some x) : s.pickMessage e = s := by
  rw [pickMessage, h, if_pos (by rfl)]

theorem pickMessage_of_response {r : Response} {rest : List Response} (idle : s.egress[e].transmitter = none)
    (h : s.egress[e].responses = r :: rest) : s.pickMessage e = s.updateEgress e Egress.pickResponse := by
  rw [pickMessage, idle, if_neg (by decide), h, if_neg (by simp)]

theorem pickMessage_of_none (idle : s.egress[e].transmitter = none) (h : s.egress[e].responses = []) :
    s.pickMessage e = s.pickReport e := by
  rw [pickMessage, idle, if_neg (by decide), h, if_pos (by rfl)]

end State

/-! ### The report offered -/

namespace EventUnit

variable {u : EventUnit}

/-- R173: nothing is offered by a stalled path, with four records under way, or without a record that may be sent. -/
theorem offered_eq_none
    (h : u.path = .stalled ∨ 4 ≤ u.queue.countP (fun r => r.state = .outstanding || r.inTransmission) ∨
      ∀ r ∈ u.queue, r.state = .unsent → r.inTransmission = true) : u.offered = none := by
  have busy : u.busyRecords = u.queue.countP (fun r => r.state = .outstanding || r.inTransmission) := rfl
  unfold offered
  rw [busy]
  split
  · next free =>
    rw [Bool.and_eq_true, decide_eq_true_eq, decide_eq_true_eq] at free
    obtain ⟨running, few⟩ := free
    rw [List.find?_eq_none]
    intro r hr offered
    rcases h with stalled | many | none
    · exact absurd (running.symm.trans stalled) (by decide)
    · exact absurd few (Nat.not_lt.mpr many)
    · rw [offerable, Bool.and_eq_true, decide_eq_true_eq] at offered
      simp [none r hr offered.1] at offered
  · rfl

/-- R173: a running path with room offers the first record that may be sent. -/
theorem offered_eq_some {before after : List EventRecord} {r : EventRecord} (running : u.path = .running)
    (few : u.queue.countP (fun r => r.state = .outstanding || r.inTransmission) < 4) (queue : u.queue = before ++ r :: after)
    (unsent : r.state = .unsent) (waiting : r.inTransmission = false)
    (first : ∀ x ∈ before, x.state = .unsent → x.inTransmission = true) : u.offered = some r := by
  have busy : u.busyRecords = u.queue.countP (fun r => r.state = .outstanding || r.inTransmission) := rfl
  have skipped : before.find? offerable = none := List.find?_eq_none.mpr fun x hx offered => by
    rw [offerable, Bool.and_eq_true, decide_eq_true_eq] at offered
    simp [first x hx offered.1] at offered
  have found : offerable r = true := by simp [offerable, unsent, waiting]
  rw [offered, busy, running, decide_eq_true rfl, decide_eq_true (by exact few), if_pos (by rfl), queue,
    List.find?_append, skipped, List.find?_cons_of_pos found]
  rfl

/-- A record is changed by its number, which no other of the queue has. -/
theorem updateRecord_queue {before after : List EventRecord} {r : EventRecord} (f : EventRecord → EventRecord)
    (queue : u.queue = before ++ r :: after) (distinct : (u.queue.map (·.sequence)).Nodup) :
    u.updateRecord r.sequence f = { u with queue := before ++ f r :: after } := by
  rw [queue, List.map_append, List.map_cons, List.nodup_append, List.nodup_cons] at distinct
  obtain ⟨-, ⟨behind, -⟩, apart⟩ := distinct
  have others : ∀ l : List EventRecord, (∀ x ∈ l, x.sequence ≠ r.sequence) →
      l.map (fun x => if x.sequence = r.sequence then f x else x) = l := fun l hl => by
    conv_rhs => rw [← List.map_id l]
    exact List.map_congr_left fun x hx => if_neg (hl x hx)
  rw [updateRecord, queue, List.map_append, List.map_cons, if_pos rfl,
    others before fun x hx => apart _ (List.mem_map_of_mem hx) _ List.mem_cons_self,
    others after fun x hx same => behind (same ▸ List.mem_map_of_mem hx)]

end EventUnit

namespace State

variable {s : State} {e : PortIdx}

theorem pickReport_of_none (h : s.events.offered = none ∨ e ≠ s.channel.control) : s.pickReport e = s := by
  unfold pickReport
  split
  · next r hr =>
    rcases h with none | other
    · exact absurd (hr.symm.trans none) (by simp)
    · rw [if_neg (Ne.symm other)]
  · rfl

theorem pickReport_of_some {r : EventRecord} (h : s.events.offered = some r) (control : e = s.channel.control) :
    s.pickReport e =
      { s with
        egress := updateAt s.egress e fun y =>
          { y with transmitter := some { bytes := reportBytes r, next := 0, origin := .report r.sequence } }
        events := s.events.beginTransmission r.sequence } := by
  rw [pickReport, h]
  dsimp only
  rw [if_pos control.symm]
  rfl

end State

end Sys2Proof.Machine
end

section
/-! PROOFS. The egress frames (R18), the bytes of fragments and reports (R13, Table 9), and what the rows of a transmitter and
of a frame do. -/

namespace Sys2Proof.Machine

/-- An operation done for each index that leaves the state alone at every one of them. -/
theorem forEach_eq_self {σ : Type} {n : Nat} {f : Fin n → σ → σ} {s : σ} (h : ∀ i, f i s = s) : forEach n f s = s :=
  forEach_keeps (P := (· = s)) (fun i t ht => by rw [ht, h i]) rfl

namespace State

variable {s : State} {e : PortIdx}

/-! ### A frame whose samples are made -/

/-- R134: the contexts and the samples of an egress port's slots are made. -/
def SamplesMade (s : State) (e : PortIdx) : Prop :=
  ∀ k : Fin 16, s.slots[slotIndex e k].due.transition = false ∧ s.slots[slotIndex e k].due.mix = false

theorem switchesFirst_of_made (made : s.SamplesMade e) : s.switchesFirst e = s :=
  forEach_eq_self fun k => by rw [switchFirst, (made k).1, if_neg (by decide)]

theorem ensureMixes_of_made (made : s.SamplesMade e) : s.ensureMixes e = s :=
  forEach_eq_self fun k => by rw [ensureMix, (made k).2, if_neg (by decide)]

theorem ensureFrame_of_made (due : s.egress[e].frameDue = true) (made : s.SamplesMade e)
    (supplied : s.egress[e].serviceDue = false) : s.ensureFrame e = s.sendFrame e := by
  rw [ensureFrame, if_pos due, ensureMixes_of_made made, ensureTransmitter_of_taken supplied]

theorem frameWork_of_made (due : s.egress[e].frameDue = true) (made : s.SamplesMade e) :
    s.frameWork e = (s.transmitterWork e).ensureFrame e := by
  rw [frameWork, if_pos due, switchesFirst_of_made made, ensureMixes_of_made made]

/-- With the field supplied, the row is the frame alone, due or not. -/
theorem frameWork_of_supplied (made : s.SamplesMade e) (supplied : s.egress[e].serviceDue = false) :
    s.frameWork e = s.ensureFrame e := by
  by_cases due : s.egress[e].frameDue = true
  · rw [frameWork_of_made due made, transmitterWork_of_taken supplied]
  · rw [frameWork, if_neg due, ensureFrame, if_neg due]

theorem SamplesMade.of_slots {t : State} (made : s.SamplesMade e) (slots : t.slots = s.slots) : t.SamplesMade e :=
  fun k => by
    rw [slots]
    exact made k

theorem SamplesMade.look (made : s.SamplesMade e) : s.runProcessor.SamplesMade e := fun k => by
  rcases runProcessor_spends s with idle | ⟨-, works⟩
  · rw [idle]
    exact made k
  · rw [(works _).1, (works _).2]
    exact made k

theorem ensureTransmitter_slots (s : State) (e : PortIdx) : (s.ensureTransmitter e).slots = s.slots := by
  unfold ensureTransmitter
  split
  · obtain ⟨f, processor, events, h⟩ := s.takeTransmitter_writes e
    rw [h]
  · rfl

/-- The transmitter's row ends in its turn, on a state whose samples are made as before. -/
theorem transmitterWork_ends (made : s.SamplesMade e) :
    ∃ v : State, s.transmitterWork e = v.ensureTransmitter e ∧ v.SamplesMade e := by
  have looks : ∀ v : State, v.SamplesMade e →
      ∃ w : State, v.afterLook (ensureTransmitter · e) = w.ensureTransmitter e ∧ w.SamplesMade e := fun v hv => by
    unfold afterLook
    split
    · exact ⟨_, rfl, hv.look⟩
    · exact ⟨v, rfl, hv⟩
  unfold transmitterWork
  split
  · obtain ⟨f, processor, events, h⟩ := s.completeSending_writes e
    exact looks _ (made.of_slots (by rw [h]))
  · exact looks s made

/-- R18: the transmitter's row before the frame's leaves the frame's as it is. -/
theorem frameWork_transmitterWork (due : s.egress[e].frameDue = true) (made : s.SamplesMade e) :
    (s.transmitterWork e).frameWork e = s.frameWork e := by
  rw [frameWork_of_made due made]
  obtain ⟨v, ends, hv⟩ := transmitterWork_ends made
  rw [ends]
  exact frameWork_of_supplied (hv.of_slots (v.ensureTransmitter_slots e)) (v.ensureTransmitter_serviceDue e)

/-- R133: the bits of the slot-valid map. -/
theorem egressValidMap_bit (s : State) (e : PortIdx) (k : Fin 16) :
    (s.egressValidMap e).getLsbD k.val = s.slots[slotIndex e k].output.valid := by
  have fold : ∀ (l : List (Fin 16)) (w : Word16),
      (l.foldl (fun w j => if s.slots[slotIndex e j].output.valid then w ||| BitVec.twoPow 16 j.val else w) w).getLsbD k.val =
        (w.getLsbD k.val || (decide (k ∈ l) && s.slots[slotIndex e k].output.valid)) := by
    intro l
    induction l with
    | nil => simp
    | cons j l ih =>
      intro w
      rw [List.foldl_cons, ih]
      by_cases h : k = j
      · subst h
        cases s.slots[slotIndex e k].output.valid <;> simp
      · have apart : ¬j.val = k.val := fun same => h (Fin.ext same.symm)
        cases s.slots[slotIndex e j].output.valid <;> simp [h, Ne.symm apart]
  rw [egressValidMap, fold, decide_eq_true (List.mem_finRange k)]
  simp

theorem sendFrame_eq (s : State) (e : PortIdx) :
    s.sendFrame e = s.updateEgress e fun y =>
      { y with
        lane := if y.enabled then
            some (buildFrame (s.timing.periodCounter.setWidth 8) (s.egressValidMap e) y.field
              (Vector.ofFn fun k => s.slots[slotIndex e k].output.sample))
          else none
        frameDue := false } :=
  updateEgress_congr rfl

end State

/-! ### Fragments and reports as bytes -/

/-- R12, R13: the kind and the payload of fragment `j`. -/
theorem fragmentOf_eq {bytes : List Byte} {j : Nat} (long : 3 ≤ bytes.length) (hj : j < (bytes.length + 2) / 3) :
    fragmentOf bytes j =
      { tag := BitVec.ofNat 8
          (32 * (if bytes.length = 3 then 4 else if j = 0 then 1 else if 3 * j + 3 < bytes.length then 2 else 3) + j)
        payload := #v[bytes.getD (3 * j) 0#8, bytes.getD (3 * j + 1) 0#8, bytes.getD (3 * j + 2) 0#8] } := by
  have kind : (if fragmentCount bytes.length ≤ 1 then 4 else if j = 0 then 1
      else if j + 1 = fragmentCount bytes.length then 3 else 2) =
      if bytes.length = 3 then 4 else if j = 0 then 1 else if 3 * j + 3 < bytes.length then 2 else 3 := by
    unfold fragmentCount
    split_ifs <;> omega
  have tag := fragmentOf_tag bytes j
  rw [kind] at tag
  have payload : (fragmentOf bytes j).payload =
      #v[bytes.getD (3 * j) 0#8, bytes.getD (3 * j + 1) 0#8, bytes.getD (3 * j + 2) 0#8] := rfl
  rw [← payload]
  exact congrArg (ServiceField.mk · _) tag

/-! ### What the turn supplies -/

/-- R157: a transmitter in SENDING supplies its next fragment. -/
theorem Egress.serve_of_sending {y : Egress} {x : Sending} (h : y.transmitter = some x) :
    y.serve =
      { y with
        transmitter := some { x with next := x.next + 1 }, field := fragmentOf x.bytes x.next, serviceDue := false } := by
  rw [serve, supply, h]
  rfl

/-- R157: an idle one supplies the idle field. -/
theorem Egress.serve_of_idle {y : Egress} (h : y.transmitter = none) :
    y.serve = { y with transmitter := none, field := ⟨0#8, Vector.replicate 3 0#8⟩, serviceDue := false } := by
  rw [serve, supply, h]
  rfl

/-- R157: the head of the response queue leaves it. -/
theorem Egress.serve_pickResponse {y : Egress} {r : Response} {rest : List Response} (h : y.responses = r :: rest) :
    y.pickResponse.serve =
      { y with
        transmitter := some ⟨r.bytes, 1, r.origin⟩, field := fragmentOf r.bytes 0, serviceDue := false
        responses := rest } := by
  rw [pickResponse, h]
  rfl

namespace State

variable {s : State} {e : PortIdx}

theorem transmitterWork_of_disabled (due : s.egress[e].serviceDue = true) (off : s.egress[e].enabled = false) :
    s.transmitterWork e = s.updateEgress e fun y => { y with serviceDue := false } :=
  transmitterWork_of_room (fun on => absurd (off.symm.trans on) (by decide)) (ensureTransmitter_of_disabled due off) rfl

theorem transmitterWork_of_sending {x : Sending} (due : s.egress[e].serviceDue = true) (on : s.egress[e].enabled = true)
    (sending : s.egress[e].transmitter = some x) (left : x.next < (x.bytes.length + 2) / 3) :
    s.transmitterWork e = s.updateEgress e fun y =>
      { y with
        transmitter := some { x with next := x.next + 1 }, field := fragmentOf x.bytes x.next, serviceDue := false } := by
  have unsent := Egress.fullySent_of_sending sending fun _ => left
  refine transmitterWork_of_room (fun _ => unsent) ?_ rfl
  rw [ensureTransmitter_of_unsent due on unsent, pickMessage_of_sending sending]
  exact updateEgress_congr (Egress.serve_of_sending sending)

theorem ensureTransmitter_of_response {r : Response} {rest : List Response} (due : s.egress[e].serviceDue = true)
    (on : s.egress[e].enabled = true) (idle : s.egress[e].transmitter = none) (h : s.egress[e].responses = r :: rest) :
    s.ensureTransmitter e = s.updateEgress e fun y =>
      { y with
        transmitter := some ⟨r.bytes, 1, r.origin⟩, field := fragmentOf r.bytes 0, serviceDue := false
        responses := rest } := by
  rw [ensureTransmitter_of_unsent due on (Egress.fullySent_of_idle idle), pickMessage_of_response idle h,
    updateEgress_updateEgress]
  exact updateEgress_congr (Egress.serve_pickResponse h)

theorem transmitterWork_of_none (due : s.egress[e].serviceDue = true) (on : s.egress[e].enabled = true)
    (idle : s.egress[e].transmitter = none) (none : s.egress[e].responses = [])
    (offered : s.events.offered = .none ∨ e ≠ s.channel.control) :
    s.transmitterWork e = s.updateEgress e fun y =>
      { y with transmitter := .none, field := ⟨0#8, Vector.replicate 3 0#8⟩, serviceDue := false } := by
  have unsent := Egress.fullySent_of_idle idle
  refine transmitterWork_of_room (fun _ => unsent) ?_ rfl
  rw [ensureTransmitter_of_unsent due on unsent, pickMessage_of_none idle none, pickReport_of_none offered]
  exact updateEgress_congr (Egress.serve_of_idle idle)

theorem transmitterWork_of_report {r : EventRecord} (due : s.egress[e].serviceDue = true)
    (on : s.egress[e].enabled = true) (idle : s.egress[e].transmitter = none) (none : s.egress[e].responses = [])
    (offered : s.events.offered = some r) (control : e = s.channel.control) :
    s.transmitterWork e =
      { s with
        egress := updateAt s.egress e fun y =>
          { y with
            transmitter := some ⟨reportBytes r, 1, .report r.sequence⟩, field := fragmentOf (reportBytes r) 0
            serviceDue := false }
        events := s.events.beginTransmission r.sequence } := by
  have unsent := Egress.fullySent_of_idle idle
  refine transmitterWork_of_room (fun _ => unsent) ?_ rfl
  rw [ensureTransmitter_of_unsent due on unsent, pickMessage_of_none idle none, pickReport_of_some offered control,
    updateEgress, updateAt_updateAt]
  rfl

end State

end Sys2Proof.Machine

namespace Sys2Proof.Proofs
open Machine

/-- Settles O46: the row of a transmitter is its turn, case by case of what it holds and may pick; the row of a frame whose
samples are made is the transmitter's, then the frame; fragments and reports have their bytes. -/
theorem framesCarryTheTransmittersFragment : Obligations.FramesCarryTheTransmittersFragment := by
  refine ⟨fun s e supply hsupply => ?_, fun bytes j long hj => fragmentOf_eq long hj, fun r => ?_⟩
  · obtain rfl : supply = fun x field y => { y with transmitter := x, field := field, serviceDue := false } :=
      funext fun x => funext fun field => funext fun y => hsupply x field y
    refine ⟨fun due => ⟨fun off => ?_, fun x on sending sent => ?_, fun x on sending left => ?_,
      fun r rest on idle responses => ?_, fun on idle none => ⟨fun silent => ?_,
        fun before r after control running few queue unsent waiting first distinct => ?_⟩⟩,
      fun due made => ⟨fun unsupplied => ?_, fun supplied => ?_⟩⟩
    · rw [State.exec_transmitter, State.transmitterWork_of_disabled due off]
    · exact ⟨s.completeSending e, rfl, by
        rw [State.exec_transmitter, State.exec_transmitter, State.transmitterWork_completeSending on]⟩
    · rw [State.exec_transmitter, State.transmitterWork_of_sending due on sending left]
    · have leads := State.transmitter_leadsTo (s := s) (e := e) fun _ => Egress.fullySent_of_idle idle
      rw [State.ensureTransmitter_of_response due on idle responses] at leads
      exact leads
    · have offered : s.events.offered = .none ∨ e ≠ s.channel.control := by
        rcases silent with other | silent
        · exact .inr other
        · exact .inl (EventUnit.offered_eq_none silent)
      rw [State.exec_transmitter, State.transmitterWork_of_none due on idle none offered]
    · have offered := EventUnit.offered_eq_some running few queue unsent waiting first
      rw [State.exec_transmitter, State.transmitterWork_of_report due on idle none offered control,
        EventUnit.beginTransmission, EventUnit.updateRecord_queue _ queue distinct]
    · exact ⟨s.transmitterWork e, rfl, by
        rw [State.exec_frame, State.exec_frame, State.frameWork_transmitterWork due made]⟩
    · refine ⟨s.egressValidMap e, s.egressValidMap_bit e, ?_⟩
      rw [State.exec_frame, State.frameWork_of_supplied made supplied, State.ensureFrame_of_made due made supplied,
        State.sendFrame_eq]
  · rw [reportBytes]
    cases r.kind <;> rfl

end Sys2Proof.Proofs
end

section
/-! PROOFS. The enables (R21, R39, R159): what each operation of the blocks makes of the port states, the enables and the
control port. -/

namespace Sys2Proof.Machine

/-- The two laws of the enables, which hold together. -/
structure EnablesSound (s : State) : Prop where
  agree : EnablesAgree s
  ports : ∀ p : PortIdx, p = s.channel.control → s.ports[p].enabled = true
  egress : ∀ e : PortIdx, e = s.channel.control → s.egress[e].enabled = true

theorem enablesSound_iff {s : State} : EnablesSound s ↔ EnablesAgree s ∧ ControlEnabled s := by
  constructor
  · exact fun h => ⟨h.agree, h.ports _ rfl, h.egress _ rfl⟩
  · rintro ⟨agree, ports, egress⟩
    exact ⟨agree, fun p hp => hp ▸ ports, fun e he => he ▸ egress⟩

theorem State.reportSlip_port (s : State) (p q : PortIdx) (detail : Word16) :
    (s.reportSlip p detail).ports[q] = s.ports[q] := by
  obtain ⟨events, hw⟩ := s.reportSlip_writes p detail
  rw [hw]

/-- R55: an append leaves the port in its state. -/
theorem State.appendFrame_state (s : State) (p : PortIdx) (r : FrameRecord) :
    (s.appendFrame p r).ports[p].state = s.ports[p].state := by
  unfold State.appendFrame
  dsimp only
  split
  · rw [State.reportSlip_port, State.countPort_eq, State.updatePort_port, State.updatePort_port]
  · rw [State.updatePort_port]

/-- Table 12: the miss timer runs in no disabled port. -/
theorem Port.state_ne_disabled_of_timerRuns {x : Port} (runs : x.timerRuns = true) : x.state ≠ .disabled := by
  intro off
  simp [Port.timerRuns, off] at runs

/-! ### Tables made anew, port by port -/

section
variable (s : State) (p : PortIdx)

theorem State.armPicks_port :
    s.armPicks.ports[p] = { s.ports[p] with store := { s.ports[p].store with pickDue := true } } :=
  mapTable_getElem _ _ _ _

theorem State.armWorks_port : s.armWorks.ports[p] = { s.ports[p] with windowDue := true, silenceDue := true } :=
  mapTable_getElem _ _ _ _

theorem State.armWorks_egress : s.armWorks.egress[p] = { s.egress[p] with serviceDue := true, frameDue := true } :=
  mapTable_getElem _ _ _ _

theorem State.passTicks_port (n : Nat) : (s.passTicks n).ports[p] = s.ports[p].nextTick := mapTable_getElem _ _ _ _

theorem State.softResetValues_port : s.softResetValues.ports[p] = s.ports[p].softReset := mapTable_getElem _ _ _ _

theorem State.softResetValues_egress :
    s.softResetValues.egress[p] = { s.egress[p] with responses := [], transmitter := none } := mapTable_getElem _ _ _ _

end

namespace EnablesSound

variable {s t : State} {p : PortIdx}

/-! ### What an update of a table leaves of the laws -/

/-- Tables in which every enable and every state are as they were. -/
theorem of_tables (h : EnablesSound s) (enabled : ∀ q : PortIdx, t.ports[q].enabled = s.ports[q].enabled)
    (state : ∀ q : PortIdx, t.ports[q].state = s.ports[q].state)
    (egress : ∀ e : PortIdx, t.egress[e].enabled = s.egress[e].enabled)
    (control : t.channel.control = s.channel.control) : EnablesSound t where
  agree q := by rw [enabled, state]; exact h.agree q
  ports q hq := (enabled q).trans (h.ports q (hq.trans control))
  egress e he := (egress e).trans (h.egress e (he.trans control))

/-- The laws speak of the ports, the egress ports and the control port alone. -/
theorem of_eq (h : EnablesSound s) (ports : t.ports = s.ports) (egress : t.egress = s.egress)
    (control : t.channel.control = s.channel.control) : EnablesSound t :=
  h.of_tables (fun _ => by rw [ports]) (fun _ => by rw [ports]) (fun _ => by rw [egress]) control

theorem raise (h : EnablesSound s) (kind : EventKind) (subject : SlotIdx) (detail : Word16) :
    EnablesSound (s.raise kind subject detail) := h.of_eq rfl rfl rfl

theorem latch (h : EnablesSound s) (n : Fin 17) : EnablesSound (s.latch n) := h.of_eq rfl rfl rfl

/-- A port that agrees with its enable, and is enabled where it holds the control role. -/
theorem updatePort {f : Port → Port} (h : EnablesSound s)
    (agree : (f s.ports[p]).enabled = true ↔ (f s.ports[p]).state ≠ .disabled)
    (control : p = s.channel.control → (f s.ports[p]).enabled = true) : EnablesSound (s.updatePort p f) := by
  refine ⟨fun q => ?_, fun q hq => ?_, h.egress⟩ <;> by_cases hp : p = q
  · subst hp
    rw [State.updatePort_port]
    exact agree
  · rw [State.updatePort_ports, updateAt_get_ne _ _ hp]
    exact h.agree q
  · subst hp
    rw [State.updatePort_port]
    exact control hq
  · rw [State.updatePort_ports, updateAt_get_ne _ _ hp]
    exact h.ports q hq

/-- A port that keeps its enable and its state. -/
theorem updatePort_same {f : Port → Port} (h : EnablesSound s) (enabled : (f s.ports[p]).enabled = s.ports[p].enabled)
    (state : (f s.ports[p]).state = s.ports[p].state) : EnablesSound (s.updatePort p f) :=
  h.updatePort (by rw [enabled, state]; exact h.agree p) fun hp => enabled.trans (h.ports p hp)

/-- A port that keeps its enable and moves from one state to another, neither of them DISABLED. -/
theorem updatePort_moved {f : Port → Port} (h : EnablesSound s) (enabled : (f s.ports[p]).enabled = s.ports[p].enabled)
    (left : s.ports[p].state ≠ .disabled) (entered : (f s.ports[p]).state ≠ .disabled) :
    EnablesSound (s.updatePort p f) := by
  have on := (h.agree p).mpr left
  exact h.updatePort (iff_of_true (enabled.trans on) entered) fun _ => enabled.trans on

/-- An egress port that is enabled where it holds the control role. -/
theorem updateEgress {e : PortIdx} {f : Egress → Egress} (h : EnablesSound s)
    (control : e = s.channel.control → (f s.egress[e]).enabled = true) : EnablesSound (s.updateEgress e f) := by
  refine ⟨h.agree, h.ports, fun q hq => ?_⟩
  by_cases he : e = q
  · subst he
    rw [State.updateEgress_egress_self]
    exact control hq
  · rw [State.updateEgress_egress, updateAt_get_ne _ _ he]
    exact h.egress q hq

theorem updateEgress_same {e : PortIdx} {f : Egress → Egress} (h : EnablesSound s)
    (enabled : (f s.egress[e]).enabled = s.egress[e].enabled) : EnablesSound (s.updateEgress e f) :=
  h.updateEgress fun he => enabled.trans (h.egress e he)

/-! ### The changes of a port's state -/

theorem countPort (h : EnablesSound s) (f : PortCounters → PortCounters) : EnablesSound (s.countPort p f) :=
  h.updatePort_same rfl rfl

theorem updateFramer (h : EnablesSound s) (f : Framer → Framer) : EnablesSound (s.updateFramer p f) :=
  h.updatePort_same rfl rfl

/-- R28: a failed qualification goes back to SEARCH or to LOST. -/
theorem failQualification (h : EnablesSound s) (left : s.ports[p].state ≠ .disabled) (detail : Word16) :
    EnablesSound (s.failQualification p detail) := by
  have failed : EnablesSound (s.updatePort p Port.failQualification) := by
    refine h.updatePort_moved ?_ left ?_ <;> unfold Port.failQualification <;> split
    · rfl
    · rfl
    · exact PortState.noConfusion
    · exact PortState.noConfusion
  unfold State.failQualification
  dsimp only
  split
  · exact ((failed.raise _ _ _).latch _).latch _
  · exact (failed.raise _ _ _).latch _

theorem loseSource (h : EnablesSound s) (left : s.ports[p].state ≠ .disabled) : EnablesSound (s.loseSource p) :=
  ((h.updatePort_moved rfl left PortState.noConfusion).raise _ _ _).latch _

/-- R24, R25: only a qualifying port's window completes. -/
theorem takeWindow (h : EnablesSound s) : EnablesSound (s.takeWindow p) := by
  have counted : EnablesSound (s.updatePort p Port.countDown) := h.updatePort_same rfl rfl
  unfold State.takeWindow
  dsimp only
  split
  · next done =>
    rw [Port.windowDone, Bool.and_eq_true, decide_eq_true_eq] at done
    have left : (s.updatePort p Port.countDown).ports[p].state ≠ .disabled := by rw [done.1]; exact PortState.noConfusion
    unfold State.completeWindow
    split
    · exact counted.updatePort_moved rfl left PortState.noConfusion
    · exact counted.failQualification left _
  · exact counted

/-! ### Stores and reassembly buffers -/

theorem reportSlip (h : EnablesSound s) (detail : Word16) : EnablesSound (s.reportSlip p detail) := by
  obtain ⟨events, hw⟩ := s.reportSlip_writes p detail
  rw [hw]
  exact h.of_eq rfl rfl rfl

theorem appendFrame (h : EnablesSound s) (r : FrameRecord) : EnablesSound (s.appendFrame p r) := by
  have appended : EnablesSound (s.updatePort p fun x => { x with store := x.store.append r }) := h.updatePort_same rfl rfl
  unfold State.appendFrame
  dsimp only
  split
  · exact (appended.countPort _).reportSlip _
  · exact appended

theorem pickFrame (h : EnablesSound s) : EnablesSound (s.pickFrame p) := by
  have picked : EnablesSound (s.updatePort p fun x => { x with store := x.store.pick x.isLocked }) :=
    h.updatePort_same rfl rfl
  unfold State.pickFrame
  dsimp only
  split
  · exact (picked.countPort _).reportSlip _
  · exact picked

theorem mgmtError (h : EnablesSound s) (detail : Word16) : EnablesSound (s.mgmtError p detail) := (h.countPort _).raise _ _ _

theorem setReassembly (h : EnablesSound s) (b : Option PartialMessage) : EnablesSound (s.setReassembly p b) :=
  h.updatePort_same rfl rfl

theorem rejectFragment (h : EnablesSound s) (detail : Word16) : EnablesSound (s.rejectFragment p detail) :=
  (h.setReassembly _).mgmtError _

/-- R156: a response joins its queue, or not; no port is enabled by it. -/
theorem place (h : EnablesSound s) (e : PortIdx) (r : Response) : EnablesSound (s.updateEgress e (Egress.place r)) := by
  refine h.updateEgress_same ?_
  unfold Egress.place
  split <;> rfl

theorem answerUnexecuted (h : EnablesSound s) (bytes : List Byte) (status : Status) (detail : Word16) :
    EnablesSound (s.answerUnexecuted p bytes status detail) := by
  unfold State.answerUnexecuted
  dsimp only
  split
  · exact h.mgmtError _
  · exact h.place _ _

theorem completeMessage (h : EnablesSound s) (bytes : List Byte) : EnablesSound (s.completeMessage p bytes) := by
  unfold State.completeMessage State.queueMessage
  dsimp only
  split
  · exact h.mgmtError _
  · split
    · exact h.answerUnexecuted _ _ _
    · split
      · exact h.of_eq rfl rfl rfl
      · exact h.answerUnexecuted _ _ _

theorem dropPartial (h : EnablesSound s) : EnablesSound (s.dropPartial p) := by
  unfold State.dropPartial
  split
  · exact h.rejectFragment _
  · exact h

theorem takeFirst (h : EnablesSound s) (index : Nat) (payload : List Byte) : EnablesSound (s.takeFirst p index payload) := by
  unfold State.takeFirst
  split
  · exact h.dropPartial.setReassembly _
  · exact h.rejectFragment _

theorem takeMiddle (h : EnablesSound s) (index : Nat) (payload : List Byte) :
    EnablesSound (s.takeMiddle p index payload) := by
  unfold State.takeMiddle
  split
  · split
    · exact h.setReassembly _
    · exact h.rejectFragment _
  · exact h.rejectFragment _

theorem takeLast (h : EnablesSound s) (index : Nat) (payload : List Byte) : EnablesSound (s.takeLast p index payload) := by
  unfold State.takeLast
  split
  · split
    · exact (h.setReassembly _).completeMessage _
    · exact h.rejectFragment _
  · exact h.rejectFragment _

theorem takeOnly (h : EnablesSound s) (index : Nat) (payload : List Byte) : EnablesSound (s.takeOnly p index payload) := by
  unfold State.takeOnly
  split
  · exact (h.dropPartial.setReassembly _).completeMessage _
  · exact h.rejectFragment _

theorem takeFragment (h : EnablesSound s) (tag : Byte) (payload : List Byte) :
    EnablesSound (s.takeFragment p tag payload) := by
  unfold State.takeFragment
  dsimp only
  split
  · exact h
  · split
    · exact h.rejectFragment _
    · split
      · exact h.rejectFragment _
      · split
        · exact h.takeFirst _ _
        · split
          · exact h.takeMiddle _ _
          · split
            · exact h.takeLast _ _
            · exact h.takeOnly _ _

theorem takeSilence (h : EnablesSound s) : EnablesSound (s.takeSilence p) := by
  have counted : EnablesSound (s.updatePort p Port.countSilence) := h.updatePort_same rfl rfl
  unfold State.takeSilence
  dsimp only
  split
  · exact counted.rejectFragment _
  · exact counted

/-! ### The frames a framer examines -/

theorem checkSequence (h : EnablesSound s) (sequence : Byte) : EnablesSound (s.checkSequence p sequence) := by
  rw [State.checkSequence_eq]
  exact h.updatePort_same rfl rfl

theorem storeArrival (h : EnablesSound s) (r : FrameRecord) : EnablesSound (s.storeArrival p r) := by
  have recorded : EnablesSound (s.updatePort p fun x => x.record s.timing.tick r.sequence) := h.updatePort_same rfl rfl
  exact recorded.appendFrame r

theorem lockIfPrimed (h : EnablesSound s) (left : s.ports[p].state ≠ .disabled) : EnablesSound (s.lockIfPrimed p) := by
  unfold State.lockIfPrimed
  split
  · exact (h.updatePort_moved rfl left PortState.noConfusion).raise _ _ _
  · exact h

theorem qualifyArrival (h : EnablesSound s) (left : s.ports[p].state ≠ .disabled) (sequence : Byte) :
    EnablesSound (s.qualifyArrival p sequence) := by
  have counted : EnablesSound (s.updatePort p fun x => x.countArrival s.timing.tick sequence) := h.updatePort_same rfl rfl
  unfold State.qualifyArrival
  dsimp only
  split
  · refine counted.failQualification ?_ _
    rw [State.updatePort_port]
    exact left
  · exact counted

/-- R36: an arrival moves its port only between states of an enabled port. -/
theorem portArrival (h : EnablesSound s) (r : FrameRecord) (reached : Bool) : EnablesSound (s.portArrival p r reached) := by
  have waiting : s.ports[p].state ≠ .disabled →
      EnablesSound (if reached then s.updatePort p fun x => x.enterQualify s.timing.tick r.sequence else s) := fun left => by
    split
    · exact h.updatePort_moved rfl left PortState.noConfusion
    · exact h
  unfold State.portArrival
  split
  · next hs => exact waiting (by rw [hs]; exact PortState.noConfusion)
  · next hs => exact waiting (by rw [hs]; exact PortState.noConfusion)
  · next hs => exact h.qualifyArrival (by rw [hs]; exact PortState.noConfusion) _
  · next hs =>
    refine (h.storeArrival r).lockIfPrimed ?_
    rw [State.storeArrival, State.appendFrame_state, State.updatePort_port]
    exact fun off => PortState.noConfusion (hs.symm.trans off)
  · exact h.storeArrival r
  · exact h

theorem takeArrival (h : EnablesSound s) (f : LaneFrame) (reached : Bool) : EnablesSound (s.takeArrival p f reached) :=
  ((h.checkSequence _).portArrival _ _).takeFragment _ _

theorem examineCandidate (h : EnablesSound s) (position : Nat) (f : LaneFrame) :
    EnablesSound (s.examineCandidate p position f) := by
  unfold State.examineCandidate
  split <;> exact h.updateFramer _

theorem examineConfirming (h : EnablesSound s) (f : LaneFrame) : EnablesSound (s.examineConfirming p f) := by
  unfold State.examineConfirming
  split
  · split
    · exact h.updateFramer _
    · exact (h.updateFramer _).takeArrival f true
  · exact h.updateFramer _

theorem examineArrival (h : EnablesSound s) (f : LaneFrame) : EnablesSound (s.examineArrival p f) :=
  (h.updateFramer _).takeArrival f _

theorem examineCrcError (h : EnablesSound s) : EnablesSound (s.examineCrcError p) := (h.updateFramer _).countPort _

/-- R8, R27, R35: a loss of alignment takes its port from QUALIFY, PRIME or LOCKED. -/
theorem loseAlignment (h : EnablesSound s) : EnablesSound (s.loseAlignment p) := by
  have misaligned : EnablesSound (s.updatePort p fun _ => s.ports[p].misaligned) := h.updatePort_same rfl rfl
  have left : s.ports[p].state ≠ .disabled →
      (s.updatePort p fun _ => s.ports[p].misaligned).ports[p].state ≠ .disabled := fun on => by
    rw [State.updatePort_port]
    exact on
  rw [State.loseAlignment_eq]
  split
  · next hs => exact misaligned.failQualification (left (by rw [hs]; exact PortState.noConfusion)) _
  · next hs => exact misaligned.loseSource (left (by rw [hs]; exact PortState.noConfusion))
  · next hs => exact misaligned.loseSource (left (by rw [hs]; exact PortState.noConfusion))
  all_goals exact misaligned

theorem examineMissing (h : EnablesSound s) : EnablesSound (s.examineMissing p) := by
  unfold State.examineMissing
  split
  · exact h.updateFramer _
  · exact h.loseAlignment

/-! ### Egress ports -/

theorem completeSending (h : EnablesSound s) (e : PortIdx) : EnablesSound (s.completeSending e) := by
  have ended : EnablesSound (s.updateEgress e fun y => { y with transmitter := none }) := h.updateEgress_same rfl
  cases hx : s.egress[e].fullySent with
  | none => rw [State.completeSending_of_unsent hx]; exact h
  | some x =>
    rw [State.completeSending_of_sent hx]
    cases x.origin <;> exact ended.of_eq rfl rfl rfl

theorem pickResponse (h : EnablesSound s) (e : PortIdx) : EnablesSound (s.updateEgress e Egress.pickResponse) := by
  refine h.updateEgress_same ?_
  unfold Egress.pickResponse
  split <;> rfl

theorem pickReport (h : EnablesSound s) (e : PortIdx) : EnablesSound (s.pickReport e) := by
  unfold State.pickReport
  split
  · split
    · next r _ _ =>
      have picked : EnablesSound (s.updateEgress e fun y =>
          { y with transmitter := some { bytes := reportBytes r, next := 0, origin := .report r.sequence } }) :=
        h.updateEgress_same rfl
      exact picked.of_eq rfl rfl rfl
    · exact h
  · exact h

theorem pickMessage (h : EnablesSound s) (e : PortIdx) : EnablesSound (s.pickMessage e) := by
  unfold State.pickMessage
  split
  · exact h
  · split
    · exact h.pickReport e
    · exact h.pickResponse e

/-! ### The commands that write an enable or the control port -/

/-- R39, R159: a PORT_CONFIG writes enable and state together, and disables no control port. -/
theorem configurePort (h : EnablesSound s) {enable : Bool} (x : PortSettings)
    (allowed : enable = false → p ≠ s.channel.control) : EnablesSound (configurePort s p enable x) := by
  unfold Machine.configurePort
  split
  · cases enable with
    | false => exact h.updatePort (iff_of_false Bool.noConfusion fun on => on rfl) fun hp => absurd hp (allowed rfl)
    | true => exact h.updatePort (iff_of_true rfl PortState.noConfusion) fun _ => rfl
  · split <;> exact h.updatePort_same rfl rfl

/-- R41: only an enabled port goes back to SEARCH. -/
theorem restartPort (h : EnablesSound s) : EnablesSound (restartPort s p) := by
  unfold Machine.restartPort
  split
  · next on => exact h.updatePort_moved rfl ((h.agree p).mp on) PortState.noConfusion
  · exact h

/-- R160: the role moves to a port enabled both ways. -/
theorem moveControl (h : EnablesSound s) (ingress : s.ports[p].enabled = true) (egress : s.egress[p].enabled = true) :
    EnablesSound (moveControl s p) := by
  unfold Machine.moveControl
  split
  · exact h
  · exact ⟨h.agree, fun q hq => hq ▸ ingress, fun q hq => hq ▸ egress⟩

theorem enableEgress (h : EnablesSound s) (e : PortIdx) : EnablesSound (enableEgress s e) := by
  unfold Machine.enableEgress
  split
  · exact h
  · exact h.updateEgress fun _ => rfl

theorem disableEgress (h : EnablesSound s) {e : PortIdx} (other : e ≠ s.channel.control) :
    EnablesSound (disableEgress s e) := by
  unfold Machine.disableEgress
  split
  · obtain ⟨f, processor, events, sent⟩ := s.completeSending_writes e
    obtain ⟨events', abandoned⟩ := (s.completeSending e).abandonSending_writes e
    have ended : EnablesSound ((s.completeSending e).abandonSending e) := by
      rw [abandoned]
      exact (h.completeSending e).of_eq rfl rfl rfl
    refine ended.updateEgress fun he => absurd he ?_
    rw [abandoned, sent]
    exact other
  · exact h

/-! ### Boundaries, time and resets -/

theorem fixTiming (h : EnablesSound s) : EnablesSound s.fixTiming := by
  obtain ⟨timing, events, hw⟩ := s.fixTiming_writes
  rw [hw]
  exact h.of_eq rfl rfl rfl

theorem armPicks (h : EnablesSound s) : EnablesSound s.armPicks :=
  h.of_tables (fun q => by rw [s.armPicks_port]) (fun q => by rw [s.armPicks_port]) (fun _ => rfl) rfl

theorem armWorks (h : EnablesSound s) : EnablesSound s.armWorks :=
  h.of_tables (fun q => by rw [s.armWorks_port]) (fun q => by rw [s.armWorks_port])
    (fun e => by rw [s.armWorks_egress]) rfl

theorem passTicks (h : EnablesSound s) (n : Nat) : EnablesSound (s.passTicks n) :=
  h.of_tables (fun q => by rw [s.passTicks_port, State.nextTick_enabled])
    (fun q => by rw [s.passTicks_port, State.nextTick_state]) (fun _ => rfl) rfl

theorem afterReset (cause : ResetCause) (control : PortIdx) (rows : List Instr) :
    EnablesSound ((State.afterReset cause control).withPending rows) where
  agree p := by simp [State.withPending, State.afterReset, resetPort]
  ports p _ := by simp [State.withPending, State.afterReset, resetPort]
  egress e _ := by simp [State.withPending, State.afterReset, resetEgress]

/-- R45: a soft reset puts each port in the state of its enable, and keeps the enables and the control port. -/
theorem softReset (h : EnablesSound s) : EnablesSound s.softReset := by
  have values : EnablesSound s.softResetValues := by
    refine ⟨fun p => ?_, fun p hp => ?_, fun e he => ?_⟩
    · rw [s.softResetValues_port, Port.softReset]
      cases s.ports[p].enabled <;> simp
    · rw [s.softResetValues_port]
      exact h.ports p hp
    · rw [s.softResetValues_egress]
      exact h.egress e he
  exact (values.raise _ _ _).armWorks.fixTiming

/-- Every operation the steps are made of keeps the laws of the enables. -/
theorem kept : KeptByBlocks EnablesSound where
  queue _ _ h := h.of_eq rfl rfl rfl
  afterReset := afterReset
  softReset _ h := h.softReset
  passTicks _ n h := h.passTicks n
  beginBoundary s h := by
    have begun : EnablesSound (s.beginPeriod.updateEvents EventUnit.ageRecords) := h.of_eq rfl rfl rfl
    exact begun.armPicks.armWorks
  timing _ h := h.fixTiming
  commit s c _ h := by
    obtain ⟨slots, routes, hw, -⟩ := s.takeCommit_writes c
    rw [hw]
    exact h.of_eq rfl rfl rfl
  window _ _ h := h.takeWindow
  loseSource _ _ runs h := h.loseSource (Port.state_ne_disabled_of_timerRuns runs)
  silence _ _ h := h.takeSilence
  sent _ e h := h.completeSending e
  reportTimeout _ _ h := h.of_eq rfl rfl rfl
  pick _ _ h := h.pickFrame
  settle s i h := by
    obtain ⟨failed, events, hw⟩ := s.checkSettle_writes i
    rw [hw]
    exact h.of_eq rfl rfl rfl
  notice s i h := by
    rw [s.takeNotice_writes i]
    exact h.of_eq rfl rfl rfl
  evaluate s i h := by
    obtain ⟨f, new, events, hw⟩ := s.evaluateSlot_evaluates i
    rw [hw]
    exact h.of_eq rfl rfl rfl
  makeContext s i h := by
    obtain ⟨f, entered, events, hw⟩ := s.makeContext_writes i
    rw [hw]
    exact h.of_eq rfl rfl rfl
  mixSlot s i h := by
    obtain ⟨meters, output, events, hw⟩ := s.mixSlot_writes i
    rw [hw]
    exact h.of_eq rfl rfl rfl
  due _ _ _ _ h := h.of_eq rfl rfl rfl
  monitor s m h := by
    obtain ⟨f, events, hw⟩ := s.evaluateMonitor_writes m
    rw [hw]
    exact h.of_eq rfl rfl rfl
  pickMessage _ e _ h := h.pickMessage e
  serve _ _ h := h.updateEgress_same rfl
  pass _ _ h := h.updateEgress_same rfl
  sendFrame _ _ h := h.updateEgress_same rfl
  candidate _ _ n f _ h := h.examineCandidate n f
  confirming _ _ f _ h := h.examineConfirming f
  arrival _ _ f _ _ h := h.examineArrival f
  crcError _ _ _ h := h.examineCrcError
  missing _ _ _ h := h.examineMissing
  taken _ _ _ _ _ h := h.of_eq rfl rfl rfl
  endTurn _ h := h.of_eq rfl rfl rfl
  respond _ m _ _ _ h := h.place m.source _
  halt _ h := h.of_eq rfl rfl rfl
  control _ _ ingress egress h := h.moveControl ingress egress
  enableEgress _ e h := h.enableEgress e
  disableEgress _ _ other h := h.disableEgress other
  configurePort _ _ _ x allowed h := h.configurePort x allowed
  restartPort _ _ h := h.restartPort
  clearCounters s p clear h := by
    unfold clearCounters
    split
    · exact h.countPort _
    · exact h
  source _ _ h := h.of_eq rfl rfl rfl
  stage _ _ _ _ _ h := h.of_eq rfl rfl rfl
  copyActive s mask h := by
    unfold State.copyActive
    exact h.of_eq rfl rfl rfl
  pendingCommit _ _ h := h.of_eq rfl rfl rfl
  profile s i x h := by
    rw [s.writeProfile_writes i x]
    exact h.of_eq rfl rfl rfl
  clearClip s i clear h := by
    unfold clearClipCounter
    split
    · exact h.of_eq rfl rfl rfl
    · exact h
  clearMeters s e clear h := by
    unfold clearMeters
    split
    · exact h.of_eq rfl rfl rfl
    · exact h
  switch s i select _ h := by
    unfold switchSlot
    split
    · exact h
    · exact h.of_eq rfl rfl rfl
  monitorConfig _ _ _ h := h.of_eq rfl rfl rfl
  eventConfig _ _ _ _ h := h.of_eq rfl rfl rfl
  acknowledge _ _ h := h.of_eq rfl rfl rfl
  clearAlarms _ _ h := h.of_eq rfl rfl rfl
  pinMask _ _ h := h.of_eq rfl rfl rfl

end EnablesSound

end Sys2Proof.Machine

namespace Sys2Proof.Proofs
open Machine

/-- Settles O58: each operation of the blocks keeps the two laws together, so every step does. -/
theorem stepsKeepTheControlPortEnabled : Obligations.StepsKeepTheControlPortEnabled := by
  intro s t agree control taken
  exact enablesSound_iff.mp (EnablesSound.kept.step_keeps (enablesSound_iff.mpr ⟨agree, control⟩) taken)

end Sys2Proof.Proofs
end

section
/-! PROOFS. The commands of the ingress ports (R38 to R43), and READ_METERS (R138). -/

namespace Sys2Proof.Machine

/-! ### What the processor makes of a command it takes -/

section
variable {s t : State} {older newer : List Message} {m : Message}

/-- R155: a command of the control port is judged by its owning rule alone. -/
theorem executeCommand_of_control {code : Byte} (turn : Turn s older m newer) (hc : messageCode m = code)
    (control : m.source = s.channel.control) (authority : Authority) (rule : State → CommandResult) :
    executeCommand code authority m rule s = (rule (s.taken older newer)).deliver m := by
  rw [executeCommand_of_turn turn hc, judge_control (by exact control)]

/-- R43, R138, R155: and so is a read that asks to clear only as the control port. -/
theorem executeCommand_of_read {code : Byte} {clear : Bool} (turn : Turn s older m newer) (hc : messageCode m = code)
    (option : argByte m 4 = if clear then 1 else 0) (control : clear = true → m.source = s.channel.control)
    (rule : State → CommandResult) : executeCommand code .clearOnly m rule s = (rule (s.taken older newer)).deliver m := by
  cases clear with
  | true => exact executeCommand_of_control turn hc (control rfl) .clearOnly rule
  | false =>
    have plain : m.bytes[4]? ≠ some 1#8 := fun one => by simp [argByte, messageByte, one] at option
    rw [executeCommand_of_turn turn hc, judge_plainRead plain]

/-- R14, R155: an OK answer with results, placed where there is room. -/
theorem deliver_okWith (results : List Byte) (room : t.egress[m.source].responses.length < 4) :
    (okWith t results).deliver m = t.answered m 0#8 results :=
  respond_eq room .ok results .response

end

/-! ### PORT_RESTART -/

/-- An update that leaves its port as it stands. -/
theorem State.updatePort_id {s : State} {p : PortIdx} {f : Port → Port} (h : f s.ports[p] = s.ports[p]) :
    s.updatePort p f = s := by
  rw [updatePort, updateAt_id _ _ h]

/-- R41: a restart, by the enable of the port. -/
theorem restartPort_eq (s : State) (p : PortIdx) :
    restartPort s p = s.updatePort p fun q => if q.enabled then q.setBack .search else q := by
  unfold restartPort
  split
  · next on => exact s.updatePort_congr p (if_pos on).symm
  · next off => exact (State.updatePort_id (if_neg off)).symm

/-! ### PORT_CONFIG -/

theorem argFin_toNat {m : Message} {i w : Nat} {x : BitVec w} (h : argByte m i = x.toNat) :
    argFin m i (2 ^ w) = some x.toFin := argFin_eq.mpr h

/-- R38: settings in range are read back from their bytes. -/
theorem argSettings_eq {m : Message} {x : PortSettings} (window : argByte m 5 = x.windowCode.toNat)
    (tolerance : argByte m 6 = x.tolerance.toNat) (depth : argByte m 7 = x.depthCode.toNat)
    (miss : argByte m 8 = x.missCode.toNat) (centre : argByte m 9 = x.primeCentre.toNat) (primed : x.primeCentre ≠ 0#3) :
    argSettings m = some x := by
  have nonzero : x.primeCentre.toNat ≠ 0 := fun zero => primed (BitVec.eq_of_toNat_eq zero)
  have w : argFin m 5 4 = some x.windowCode.toFin := argFin_toNat window
  have t : argFin m 6 16 = some x.tolerance.toFin := argFin_toNat tolerance
  have d : argFin m 7 4 = some x.depthCode.toFin := argFin_toNat depth
  have f : argFin m 8 4 = some x.missCode.toFin := argFin_toNat miss
  have c : argFin m 9 8 = some x.primeCentre.toFin := argFin_toNat centre
  simp [argSettings, w, t, d, f, c, nonzero]

/-- R40: new settings of a port that stays enabled restart its window where W or T changes while it qualifies. -/
theorem Port.reconfigure_eq (x : PortSettings) (q : Port) :
    q.reconfigure x =
      if q.state = .qualify ∧ (x.windowCode ≠ q.settings.windowCode ∨ x.tolerance ≠ q.settings.tolerance) then
        { q with settings := x, windowCounter := windowOf x.windowCode, arrivalCounter := 0, windowDue := false }
      else { q with settings := x } := by
  have restarts : q.windowRestarts x = true ↔
      q.state = .qualify ∧ (x.windowCode ≠ q.settings.windowCode ∨ x.tolerance ≠ q.settings.tolerance) := by
    simp [windowRestarts, windowChanged, and_comm]
  cases hr : q.windowRestarts x with
  | true => rw [if_pos (restarts.mp hr)]; simp [reconfigure, hr]
  | false => rw [if_neg fun r => by simp [restarts.mpr r] at hr]; simp [reconfigure, hr]

/-- R39, R40: PORT_CONFIG as one update of its port. -/
theorem configurePort_eq (s : State) (p : PortIdx) (enable : Bool) (x : PortSettings) :
    configurePort s p enable x = s.updatePort p fun q =>
      if enable ≠ s.ports[p].enabled then
        ({ q with settings := x, enabled := enable } : Port).setBack (if enable then .search else .disabled)
      else if enable = true ∧ q.state = .qualify ∧
          (x.windowCode ≠ q.settings.windowCode ∨ x.tolerance ≠ q.settings.tolerance) then
        { q with settings := x, windowCounter := windowOf x.windowCode, arrivalCounter := 0, windowDue := false }
      else { q with settings := x } := by
  unfold configurePort
  split
  · rfl
  · cases enable with
    | false => simp
    | true => simp [funext (Port.reconfigure_eq x)]

/-- R38: a PORT_CONFIG in range that does not disable the control port. -/
theorem portConfigRule_eq {s : State} {m : Message} {p : PortIdx} {enable : Bool} {x : PortSettings}
    (length : messageLength m = 10) (port : argByte m 3 = p.val) (flag : argByte m 4 = if enable then 1 else 0)
    (settings : argSettings m = some x) (allowed : enable = false → p ≠ s.channel.control) :
    portConfigRule m s = answer (configurePort s p enable x) .ok := by
  rw [portConfigRule, argFin_eq.mpr port, argBool_eq.mpr flag, settings]
  exact if_neg (by simpa [length] using allowed)

/-! ### READ_PORT -/

theorem boolByte_decide (c : Prop) [Decidable c] : boolByte (decide c) = if c then 1#8 else 0#8 := by
  simp [boolByte]

/-- R42, R43: a READ_PORT in range. -/
theorem readPortRule_eq {s : State} {m : Message} {p : PortIdx} {clear : Bool} (length : messageLength m = 5)
    (port : argByte m 3 = p.val) (option : argByte m 4 = if clear then 1 else 0) :
    readPortRule m s = okWith (clearCounters s p clear) (readPortResults s.ports[p]) := by
  rw [readPortRule, argFin_eq.mpr port, argBool_eq.mpr option]
  exact if_pos length

/-! ### READ_METERS -/

/-- Bits gathered one after another into a word. -/
theorem getLsbD_foldl_twoPow (b : Fin 16 → Bool) (k : Fin 16) (l : List (Fin 16)) (w : Word16) :
    (l.foldl (fun w j => if b j then w ||| BitVec.twoPow 16 j.val else w) w).getLsbD k.val =
      (w.getLsbD k.val || (decide (k ∈ l) && b k)) := by
  induction l generalizing w with
  | nil => simp
  | cons j l ih =>
    rw [List.foldl_cons, ih]
    by_cases h : k = j
    · subst h
      cases b k <;> simp
    · have apart : ¬j.val = k.val := fun same => h (Fin.ext same.symm)
      cases b j <;> simp [h, Ne.symm apart]

/-- R138: the bits of the clip flags. -/
theorem clipFlags_bit (s : State) (e : PortIdx) (k : Fin 16) :
    (clipFlags s e).getLsbD k.val = s.slots[slotIndex e k].meters.clipFlag := by
  rw [clipFlags, getLsbD_foldl_twoPow fun j => s.slots[slotIndex e j].meters.clipFlag, decide_eq_true (List.mem_finRange k)]
  simp

/-- R138: the 16 slots of a port have its number in their indices. -/
theorem laneOf_eq_iff (i : SlotIdx) (e : PortIdx) : laneOf i = e ↔ i.val / 16 = e.val := Fin.ext_iff

/-- R138: the clear option, by the slots' indices. -/
theorem clearMeters_eq (s : State) (e : PortIdx) (clear : Bool) :
    clearMeters s e clear =
      { s with
        slots := if clear then
            Vector.ofFn fun i : SlotIdx =>
              if i.val / 16 = e.val then
                { s.slots[i] with meters := { s.slots[i].meters with clipFlag := false, peak := 0 } }
              else s.slots[i]
          else s.slots } := by
  unfold clearMeters
  simp only [laneOf_eq_iff]
  cases clear <;> rfl

/-- R138: a READ_METERS in range. -/
theorem readMetersRule_eq {s : State} {m : Message} {e : PortIdx} {clear : Bool} (length : messageLength m = 5)
    (port : argByte m 3 = e.val) (option : argByte m 4 = if clear then 1 else 0) :
    readMetersRule m s = okWith (clearMeters s e clear) (readMetersResults s e) := by
  rw [readMetersRule, argFin_eq.mpr port, argBool_eq.mpr option]
  exact if_pos length

end Sys2Proof.Machine

namespace Sys2Proof.Proofs
open Machine

/-- Settles O7: the row is the restart of its port on the state in which the processor has taken the command. -/
theorem portRestartStartsAgain : Obligations.PortRestartStartsAgain := by
  intro s older newer m p turn control code length port
  have rule : portRestartRule m (s.taken older newer) = answer (restartPort (s.taken older newer) p) .ok := by
    rw [portRestartRule, argFin_eq.mpr port]
    exact if_pos length
  have row : exec (.portRestart m) s = .next ((portRestartRule m (s.taken older newer)).deliver m) :=
    congrArg Host.Outcome.next (executeCommand_of_control turn code control _ _)
  rw [row, rule, restartPort_eq, deliver_answer _ (by exact turn.room)]
  rfl

/-- Settles O8: the row is one update of its port, by what the command does to the enable and to the window. -/
theorem portConfigWritesAndActs : Obligations.PortConfigWritesAndActs := by
  intro s older newer m p enable x turn control code length port flag window tolerance depth miss centre primed allowed
  have settings := argSettings_eq window tolerance depth miss centre primed
  have row : exec (.portConfig m) s = .next ((portConfigRule m (s.taken older newer)).deliver m) :=
    congrArg Host.Outcome.next (executeCommand_of_control turn code control _ _)
  rw [row, portConfigRule_eq (s := s.taken older newer) length port flag settings allowed, configurePort_eq,
    deliver_answer _ (by exact turn.room)]
  rfl

/-- Settles O4: each row answers with the fields as they stand, and its clear option is one update of what they count. -/
theorem readPortAndMetersAnswerAndClear : Obligations.ReadPortAndMetersAnswerAndClear := by
  constructor
  · intro s older newer m p clear turn code _ length port option control
    have row : exec (.readPort m) s = .next ((readPortRule m (s.taken older newer)).deliver m) :=
      congrArg Host.Outcome.next (executeCommand_of_read turn code option control _)
    have room : (clearCounters (s.taken older newer) p clear).egress[m.source].responses.length < 4 := by
      cases clear <;> exact turn.room
    rw [row, readPortRule_eq length port option, deliver_okWith _ room]
    refine congrArg _ ?_
    have cleared : clearCounters (s.taken older newer) p clear =
        { s.taken older newer with
          ports := if clear then updateAt s.ports p (fun q => { q with counters := zeroCounters }) else s.ports } := by
      cases clear <;> rfl
    rw [cleared, taken_ports, readPortResults, Framer.isAligned, Port.averageValid, boolByte_decide, boolByte_decide]
    cases s.ports[p].state <;> rfl
  · intro s older newer m e clear turn code _ length port option control
    have row : exec (.readMeters m) s = .next ((readMetersRule m (s.taken older newer)).deliver m) :=
      congrArg Host.Outcome.next (executeCommand_of_read turn code option control _)
    refine ⟨clipFlags s e, clipFlags_bit s e, ?_⟩
    rw [row, readMetersRule_eq length port option, clearMeters_eq, deliver_okWith _ (by exact turn.room)]
    rfl

end Sys2Proof.Proofs
end

section
/-! PROOFS. The qualification window (R24, R25, R28, R29) and the miss timer (R32, R34, R35) of an ingress port. -/

namespace Sys2Proof.Machine

/-! ### The window's count -/

/-- R24: a qualifying port's window takes a boundary. -/
theorem Port.countDown_of_qualify {q : Port} (h : q.state = .qualify) :
    q.countDown = { q with windowCounter := q.windowCounter - 1, windowDue := false } := by
  rw [countDown, if_pos h]

/-- R24, R25: that boundary completes the window where it brings the count to 0. -/
theorem Port.windowDone_countDown {q : Port} (h : q.state = .qualify) :
    q.countDown.windowDone = decide (q.windowCounter ≤ 1) := by
  rw [countDown_of_qualify h, windowDone, decide_eq_true h, Bool.true_and, decide_eq_decide]
  exact Nat.sub_eq_zero_iff_le

/-- R25: W−T arrivals or more. -/
theorem Port.windowPasses_iff (q : Port) : q.windowPasses = true ↔ q.window ≤ q.arrivalCounter + q.tolerance := by
  rw [windowPasses, decide_eq_true_eq]
  omega

namespace State

variable {s : State} {p : PortIdx} {q : Port}

/-- R24, R25: the boundary at a port, as the port stands. -/
theorem takeWindow_eq (s : State) (p : PortIdx) :
    s.takeWindow p =
      if s.ports[p].countDown.windowDone then (s.updatePort p fun _ => s.ports[p].countDown).completeWindow p
      else s.updatePort p fun _ => s.ports[p].countDown := by
  unfold takeWindow
  dsimp only
  rw [updatePort_port, ← updatePort_eq_const]

/-- R24: a boundary before the last of the window. -/
theorem takeWindow_of_early (state : s.ports[p].state = .qualify) (early : 2 ≤ s.ports[p].windowCounter) :
    s.takeWindow p = s.updatePort p fun x => { x with windowCounter := x.windowCounter - 1, windowDue := false } := by
  rw [takeWindow_eq, Port.windowDone_countDown state, decide_eq_false (by omega), Port.countDown_of_qualify state,
    updatePort_eq_const s p fun x => { x with windowCounter := x.windowCounter - 1, windowDue := false }]
  rfl

/-- R25: the boundary that completes the window. -/
theorem takeWindow_of_last (state : s.ports[p].state = .qualify) (last : s.ports[p].windowCounter = 1) :
    s.takeWindow p =
      (s.updatePort p fun _ => { s.ports[p] with windowCounter := 0, windowDue := false }).completeWindow p := by
  rw [takeWindow_eq, Port.windowDone_countDown state, decide_eq_true (by omega), Port.countDown_of_qualify state, last]
  rfl

/-- R29: a window that passes. -/
theorem completeWindow_of_passes (enough : q.window ≤ q.arrivalCounter + q.tolerance) :
    (s.updatePort p fun _ => q).completeWindow p = s.updatePort p fun _ => q.enterPrime := by
  rw [completeWindow, updatePort_port, if_pos (q.windowPasses_iff.mpr enough), updatePort_updatePort]

/-- R28: a window that fails as slow. -/
theorem completeWindow_of_slow (few : q.arrivalCounter + q.tolerance < q.window) :
    (s.updatePort p fun _ => q).completeWindow p = (s.updatePort p fun _ => q).failQualification p detailSlow := by
  have fails : ¬q.windowPasses = true := fun passes => Nat.not_le.mpr few (q.windowPasses_iff.mp passes)
  rw [completeWindow, updatePort_port, if_neg fails]

/-- R24: the window's work, while the boundary is to be taken. -/
theorem exec_window (due : s.ports[p].windowDue = true) :
    exec (.boundary (.only (.window p))) s = .next (s.takeWindow p) :=
  congrArg Host.Outcome.next (if_pos due)

/-- R25: the row of a qualifying port's window acts at the boundary that completes it. -/
theorem exec_windowComplete (state : s.ports[p].state = .qualify) (due : s.ports[p].windowDue = true) :
    exec (.windowComplete p) s = .next (if s.ports[p].windowCounter ≤ 1 then s.takeWindow p else s) := by
  have row : exec (.windowComplete p) s = .next (if s.windowCompletes p then s.takeWindow p else s) := rfl
  rw [row, windowCompletes, due, Port.windowDone_countDown state]
  simp

end State

/-! ### The miss timer -/

theorem Framer.restartRun_eq (f : Framer) :
    f.restartRun = if f.state = .aligned then { f with runCount := 0 } else f := by
  simp [restartRun, isAligned]

/-- R35, R22: a port that enters LOST, by its framer's state. -/
theorem Port.enterLost_eq (q : Port) :
    q.enterLost =
      { q with
        state := .lost, store := { q.store with fifo := [], lastAssigned := silentFrame }
        framer := if q.framer.state = .aligned then { q.framer with runCount := 0 } else q.framer } := by
  rw [enterLost, Framer.restartRun_eq]
  rfl

/-- R32: halves rounded up, the mean is the one number within half of the sum's share. -/
theorem rounded_mean {sum depth average : Nat} (below : 2 * sum < 2 * average * depth + depth)
    (above : 2 * average * depth ≤ 2 * sum + depth) : (2 * sum + depth) / (2 * depth) = average := by
  refine Nat.div_eq_of_lt_le ?_ ?_
  · calc average * (2 * depth) = 2 * average * depth := by ring
      _ ≤ 2 * sum + depth := above
  · calc 2 * sum + depth < 2 * average * depth + 2 * depth := by omega
      _ = (average + 1) * (2 * depth) := by ring

/-- R34: the miss window, from the rounded mean of the newest D intervals. -/
theorem Port.missWindow_eq {q : Port} {average : Nat} (mean : q.meanNewest = average) :
    q.missWindow = q.missFactor * if q.depth ≤ q.history.length then average else 512 := by
  rw [missWindow, Port.average, averageValid, mean]
  by_cases valid : q.depth ≤ q.history.length <;> simp [valid, Config.nominalPeriod]

/-- R34: the comparison of a running timer. -/
theorem Port.missExceeded_iff {q : Port} {a : RecordedArrival} (last : q.lastArrival = some a)
    (runs : q.state = .prime ∨ q.state = .locked) (tick : Nat) :
    q.missExceeded tick = true ↔ q.missWindow < tick - a.tick := by
  have running : q.timerRuns = true := by simpa [timerRuns] using runs
  rw [missExceeded, missElapsed, if_pos running, last]
  exact decide_eq_true_iff

end Sys2Proof.Machine

namespace Sys2Proof.Proofs
open Machine

/-- Settles O40: the row and the work are one boundary of the window, which completes it by its count and decides it by its
arrivals. -/
theorem windowsCompleteByTheirCount : Obligations.WindowsCompleteByTheirCount := by
  rintro s p q rfl state due aligned
  rw [State.exec_window due, State.exec_windowComplete state due]
  refine ⟨fun early => ⟨by rw [if_neg (by omega)], by rw [State.takeWindow_of_early state early]⟩,
    fun last => by rw [if_pos last.le], fun last enough => ?_, fun last few origin => ?_, fun last few origin => ?_⟩
  · rw [if_pos last.le, State.takeWindow_of_last state last, State.completeWindow_of_passes (by exact enough)]
    exact congrArg _ (s.updatePort_congr p rfl)
  · rw [if_pos last.le, State.takeWindow_of_last state last, State.completeWindow_of_slow (by exact few),
      State.failQualification_of_search (by exact origin), Framer.restartRun_of_aligned (by exact aligned), eq_comm,
      State.updatePort_eq_const]
    rfl
  · rw [if_pos last.le, State.takeWindow_of_last state last, State.completeWindow_of_slow (by exact few),
      State.failQualification_of_lost (by exact origin), Framer.restartRun_of_aligned (by exact aligned), eq_comm,
      State.updatePort_eq_const]
    rfl

/-- Settles O41: the row at its tick compares the timer's count with the miss window of the rounded mean. -/
theorem missTimerTakesThePortToLost : Obligations.MissTimerTakesThePortToLost := by
  rintro s u p elapsed sum average window a rfl last runs rfl ⟨below, above⟩ rfl
  have row : exec (.missTimeout p elapsed) s = .next ((s.elapse elapsed).expireIfExceeded p) := rfl
  rw [row]
  generalize s.elapse elapsed = u at *
  have exceeded := Port.missExceeded_iff last runs u.timing.tick
  rw [Port.missWindow_eq (rounded_mean below above)] at exceeded
  refine ⟨fun late => ?_, fun intime => ?_⟩
  · rw [State.expireIfExceeded, if_pos (exceeded.mpr late), State.loseSource,
      (funext Port.enterLost_eq : Port.enterLost = _)]
    rfl
  · rw [State.expireIfExceeded, if_neg fun late => Nat.not_lt.mpr intime (exceeded.mp late)]

end Sys2Proof.Proofs
end

section
/-! PROOFS. A power-on and a pin reset (R44, R53, R62, R78, R92, R111, R128, R144, R166, R183): every element of a table is
its block's reset value. -/

namespace Sys2Proof.Machine.State

variable (cause : ResetCause) (control : PortIdx) (rows : List Instr)

theorem afterReset_port (p : PortIdx) : ((afterReset cause control).withPending rows).ports[p] = resetPort :=
  Vector.getElem_replicate _

theorem afterReset_route (i : SlotIdx) : ((afterReset cause control).withPending rows).routes[i] = resetRoute i :=
  Vector.getElem_ofFn _

theorem afterReset_slot (i : SlotIdx) : ((afterReset cause control).withPending rows).slots[i] = resetSlot i :=
  Vector.getElem_ofFn _

theorem afterReset_profile (i : Fin 8) : ((afterReset cause control).withPending rows).profiles[i] = zeroProfile :=
  Vector.getElem_replicate _

theorem afterReset_monitor (n : Fin 4) : ((afterReset cause control).withPending rows).monitors[n] = resetMonitor :=
  Vector.getElem_replicate _

theorem afterReset_egress (e : PortIdx) : ((afterReset cause control).withPending rows).egress[e] = resetEgress :=
  Vector.getElem_replicate _

end Sys2Proof.Machine.State

namespace Sys2Proof.Proofs
open Machine

/-- Settles O23: either row is the reset of its cause, whose registers hold their blocks' reset values. -/
theorem powerOnAndPinResetValues : Obligations.PowerOnAndPinResetValues := by
  intro s ctlsel row cause detail either
  obtain ⟨reset, rfl⟩ : exec row s = .next ((State.afterReset cause (controlOf ctlsel)).withPending s.pending) ∧
      detail = cause.code := by
    rcases either with ⟨rfl, rfl, rfl⟩ | ⟨rfl, rfl, rfl⟩ <;> exact ⟨rfl, rfl⟩
  refine ⟨_, reset, rfl, fun p => ?port, rfl, rfl, rfl, rfl, fun i => ?slot, rfl, fun i => ?profile, fun n => ?monitor,
    fun e => ?egress, rfl, rfl, rfl, ?kinds, rfl, rfl, rfl, rfl, rfl, rfl, rfl⟩
  case port =>
    rw [State.afterReset_port]
    decide
  case slot =>
    rw [State.afterReset_route, State.afterReset_slot]
    exact ⟨rfl, rfl, rfl, rfl, rfl, rfl⟩
  case profile => exact State.afterReset_profile ..
  case monitor =>
    rw [State.afterReset_monitor]
    decide
  case egress =>
    rw [State.afterReset_egress]
    decide
  case kinds =>
    have defaults : ∀ k : Fin 20, defaultKindConfig[k].enabled = decide (k.val ≠ 7 ∧ k.val ≠ 8) ∧
        defaultKindConfig[k].priority.val = [3, 3, 2, 1, 1, 2, 2, 0, 0, 2, 3, 2, 3, 3, 1, 1, 1, 1, 3, 3].getD k.val 0 := by
      decide
    exact defaults

end Sys2Proof.Proofs
end

section
/-! PROOFS. The laws of the elastic stores (R54) and of the reference period (R48, Table 15): both speak of the ingress ports
and the timing unit alone, so a step keeps them where the operations that write either do. -/

namespace Sys2Proof.Machine

/-! ### Laws of the ports and the timing unit -/

/-- P speaks of the ingress ports and the timing unit alone, and each operation that writes one of them keeps it. -/
structure KeptByLanes (P : State → Prop) : Prop where
  congr : ∀ {s t : State}, P s → t.ports = s.ports → t.timing = s.timing → P t
  afterReset : ∀ cause control, P (State.afterReset cause control)
  softReset : ∀ s, P s → P s.softReset
  passTicks : ∀ s n, P s → P (s.passTicks n)
  beginBoundary : ∀ s, P s → P (s.beginPeriod.updateEvents EventUnit.ageRecords).armPicks.armWorks
  timing : ∀ s, P s → P s.fixTiming
  window : ∀ s p, P s → P (s.takeWindow p)
  loseSource : ∀ s p, P s → P (s.loseSource p)
  silence : ∀ s p, P s → P (s.takeSilence p)
  pick : ∀ s p, P s → P (s.pickFrame p)
  candidate : ∀ s p n f, P s → P (s.examineCandidate p n f)
  confirming : ∀ s p f, P s → P (s.examineConfirming p f)
  arrival : ∀ s p f, P s → P (s.examineArrival p f)
  crcError : ∀ s p, P s → P (s.examineCrcError p)
  missing : ∀ s p, P s → P (s.examineMissing p)
  configurePort : ∀ s p enable x, P s → P (configurePort s p enable x)
  restartPort : ∀ s p, P s → P (restartPort s p)
  clearCounters : ∀ s p clear, P s → P (clearCounters s p clear)
  source : ∀ (s : State) x, P s → P (s.updateTiming fun t => { t with source := x })

/-- Every other operation the steps are made of leaves the ports and the timing unit alone. -/
theorem KeptByLanes.blocks {P : State → Prop} (k : KeptByLanes P) : KeptByBlocks P where
  queue _ _ h := k.congr h rfl rfl
  afterReset cause control _ := k.congr (k.afterReset cause control) rfl rfl
  softReset := k.softReset
  passTicks := k.passTicks
  beginBoundary := k.beginBoundary
  timing := k.timing
  commit s c _ h := by
    obtain ⟨slots, routes, hw, -⟩ := s.takeCommit_writes c
    rw [hw]
    exact k.congr h rfl rfl
  window := k.window
  loseSource s p _ h := k.loseSource s p h
  silence := k.silence
  sent s e h := by
    obtain ⟨f, processor, events, hw⟩ := s.completeSending_writes e
    rw [hw]
    exact k.congr h rfl rfl
  reportTimeout _ _ h := k.congr h rfl rfl
  pick := k.pick
  settle s i h := by
    obtain ⟨failed, events, hw⟩ := s.checkSettle_writes i
    rw [hw]
    exact k.congr h rfl rfl
  notice s i h := by
    rw [s.takeNotice_writes i]
    exact k.congr h rfl rfl
  evaluate s i h := by
    obtain ⟨f, new, events, hw⟩ := s.evaluateSlot_evaluates i
    rw [hw]
    exact k.congr h rfl rfl
  makeContext s i h := by
    obtain ⟨f, entered, events, hw⟩ := s.makeContext_writes i
    rw [hw]
    exact k.congr h rfl rfl
  mixSlot s i h := by
    obtain ⟨meters, output, events, hw⟩ := s.mixSlot_writes i
    rw [hw]
    exact k.congr h rfl rfl
  due _ _ _ _ h := k.congr h rfl rfl
  monitor s m h := by
    obtain ⟨f, events, hw⟩ := s.evaluateMonitor_writes m
    rw [hw]
    exact k.congr h rfl rfl
  pickMessage s e _ h := by
    obtain ⟨f, events, hw⟩ := s.pickMessage_writes e
    rw [hw]
    exact k.congr h rfl rfl
  serve _ _ h := k.congr h rfl rfl
  pass _ _ h := k.congr h rfl rfl
  sendFrame _ _ h := k.congr h rfl rfl
  candidate s p n f _ h := k.candidate s p n f h
  confirming s p f _ h := k.confirming s p f h
  arrival s p f _ _ h := k.arrival s p f h
  crcError s p _ h := k.crcError s p h
  missing s p _ h := k.missing s p h
  taken _ _ _ _ _ h := k.congr h rfl rfl
  endTurn _ h := k.congr h rfl rfl
  respond _ _ _ _ _ h := k.congr h rfl rfl
  halt _ h := k.congr h rfl rfl
  control s p _ _ h := by
    unfold moveControl
    split
    · exact h
    · exact k.congr h rfl rfl
  enableEgress s e h := by
    unfold enableEgress
    split
    · exact h
    · exact k.congr h rfl rfl
  disableEgress s e _ h := by
    unfold disableEgress
    split
    · obtain ⟨f, processor, events, sent⟩ := s.completeSending_writes e
      obtain ⟨events', abandoned⟩ := (s.completeSending e).abandonSending_writes e
      rw [abandoned, sent]
      exact k.congr h rfl rfl
    · exact h
  configurePort s p enable x _ h := k.configurePort s p enable x h
  restartPort := k.restartPort
  clearCounters := k.clearCounters
  source := k.source
  stage _ _ _ _ _ h := k.congr h rfl rfl
  copyActive s mask h := by
    unfold State.copyActive
    exact k.congr h rfl rfl
  pendingCommit _ _ h := k.congr h rfl rfl
  profile s i x h := by
    rw [s.writeProfile_writes i x]
    exact k.congr h rfl rfl
  clearClip s i clear h := by
    unfold clearClipCounter
    split
    · exact k.congr h rfl rfl
    · exact h
  clearMeters s e clear h := by
    unfold clearMeters
    split
    · exact k.congr h rfl rfl
    · exact h
  switch s i select _ h := by
    unfold switchSlot
    split
    · exact h
    · exact k.congr h rfl rfl
  monitorConfig _ _ _ h := k.congr h rfl rfl
  eventConfig _ _ _ _ h := k.congr h rfl rfl
  acknowledge _ _ h := k.congr h rfl rfl
  clearAlarms _ _ h := k.congr h rfl rfl
  pinMask _ _ h := k.congr h rfl rfl

/-! ### The service field of an arrival -/

/-- P is kept by each operation with which the reassembly buffer of a port takes a service field (R146 to R153). -/
structure KeptByService (P : State → Prop) (p : PortIdx) : Prop where
  buffer : ∀ s b, P s → P (s.setReassembly p b)
  error : ∀ s detail, P s → P (s.mgmtError p detail)
  queued : ∀ (s : State) m, P s → P (s.updateChannel fun c => { c with queue := c.queue ++ [m] })
  placed : ∀ (s : State) r, P s → P (s.updateEgress p (Egress.place r))

namespace KeptByService

variable {P : State → Prop} {p : PortIdx} (k : KeptByService P p) {s : State}
include k

theorem rejectFragment (detail : Word16) (h : P s) : P (s.rejectFragment p detail) := k.error _ _ (k.buffer _ _ h)

theorem answerUnexecuted (bytes : List Byte) (status : Status) (detail : Word16) (h : P s) :
    P (s.answerUnexecuted p bytes status detail) := by
  unfold State.answerUnexecuted
  dsimp only
  split
  · exact k.error _ _ h
  · exact k.placed _ _ h

theorem completeMessage (bytes : List Byte) (h : P s) : P (s.completeMessage p bytes) := by
  unfold State.completeMessage State.queueMessage
  dsimp only
  split
  · exact k.error _ _ h
  · split
    · exact k.answerUnexecuted _ _ _ h
    · split
      · exact k.queued _ _ h
      · exact k.answerUnexecuted _ _ _ h

theorem dropPartial (h : P s) : P (s.dropPartial p) := by
  unfold State.dropPartial
  split
  · exact k.rejectFragment _ h
  · exact h

theorem takeFirst (index : Nat) (payload : List Byte) (h : P s) : P (s.takeFirst p index payload) := by
  unfold State.takeFirst
  split
  · exact k.buffer _ _ (k.dropPartial h)
  · exact k.rejectFragment _ h

theorem takeMiddle (index : Nat) (payload : List Byte) (h : P s) : P (s.takeMiddle p index payload) := by
  unfold State.takeMiddle
  split
  · split
    · exact k.buffer _ _ h
    · exact k.rejectFragment _ h
  · exact k.rejectFragment _ h

theorem takeLast (index : Nat) (payload : List Byte) (h : P s) : P (s.takeLast p index payload) := by
  unfold State.takeLast
  split
  · split
    · exact k.completeMessage _ (k.buffer _ _ h)
    · exact k.rejectFragment _ h
  · exact k.rejectFragment _ h

theorem takeOnly (index : Nat) (payload : List Byte) (h : P s) : P (s.takeOnly p index payload) := by
  unfold State.takeOnly
  split
  · exact k.completeMessage _ (k.buffer _ _ (k.dropPartial h))
  · exact k.rejectFragment _ h

theorem takeFragment (tag : Byte) (payload : List Byte) (h : P s) : P (s.takeFragment p tag payload) := by
  unfold State.takeFragment
  dsimp only
  split
  · exact h
  · split
    · exact k.rejectFragment _ h
    · split
      · exact k.rejectFragment _ h
      · split
        · exact k.takeFirst _ _ h
        · split
          · exact k.takeMiddle _ _ h
          · split
            · exact k.takeLast _ _ h
            · exact k.takeOnly _ _ h

end KeptByService

/-! ### R54: the stores -/

/-- R54: the law of one port follows its store's frames and its state. -/
theorem Port.storeSound.of_eq {x y : Port} (h : x.storeSound) (fifo : y.store.fifo = x.store.fifo)
    (state : y.state = x.state) : y.storeSound := by
  unfold storeSound
  rw [fifo, state]
  exact h

/-- R54: a store without frames. -/
theorem Port.storeSound_of_empty {x : Port} (h : x.store.fifo = []) : x.storeSound := by
  unfold storeSound
  rw [h]
  exact ⟨Nat.zero_le _, fun _ _ => rfl⟩

/-- R54: a store whose port is in PRIME or LOCKED. -/
theorem Port.storeSound_of_filling {x : Port} (few : x.store.fifo.length ≤ 8) (filling : x.state = .prime ∨ x.state = .locked) :
    x.storeSound := by
  refine ⟨few, fun prime locked => ?_⟩
  rcases filling with h | h
  · exact absurd h prime
  · exact absurd h locked

/-- R55: an append leaves at most eight frames. -/
theorem ElasticStore.length_append_le {st : ElasticStore} (h : st.fifo.length ≤ 8) (r : FrameRecord) :
    (st.append r).fifo.length ≤ 8 := by
  unfold append Config.storeDepth
  dsimp only
  split <;> simp <;> omega

/-- R57: a pick takes a frame or none. -/
theorem ElasticStore.pick_fifo (locked : Bool) (st : ElasticStore) :
    (st.pick locked).fifo = if locked then st.fifo.drop 1 else st.fifo := by
  unfold pick
  cases locked with
  | false => rfl
  | true => cases h : st.fifo <;> simp

/-- R45, R61: a set-back and a soft reset flush the store. -/
theorem Port.setBack_fifo (x : Port) (state : PortState) : (x.setBack state).store.fifo = [] := rfl

theorem Port.softReset_fifo (x : Port) : x.softReset.store.fifo = [] := (State.softReset_store x.store).1

namespace StoresSound

variable {s t : State} {p : PortIdx}

theorem of_ports (h : StoresSound s) (ports : t.ports = s.ports) : StoresSound t := by
  unfold StoresSound
  rw [ports]
  exact h

theorem of_table (h : StoresSound s) (fifo : ∀ q : PortIdx, t.ports[q].store.fifo = s.ports[q].store.fifo)
    (state : ∀ q : PortIdx, t.ports[q].state = s.ports[q].state) : StoresSound t :=
  fun q => (h q).of_eq (fifo q) (state q)

theorem updatePort {f : Port → Port} (h : StoresSound s) (sound : (f s.ports[p]).storeSound) :
    StoresSound (s.updatePort p f) := by
  intro q
  by_cases hp : p = q
  · subst hp
    rw [State.updatePort_port]
    exact sound
  · rw [State.updatePort_ports, updateAt_get_ne _ _ hp]
    exact h q

/-- An update that leaves the store's frames and the port's state alone. -/
theorem updatePort_same {f : Port → Port} (h : StoresSound s) (fifo : (f s.ports[p]).store.fifo = s.ports[p].store.fifo)
    (state : (f s.ports[p]).state = s.ports[p].state) : StoresSound (s.updatePort p f) :=
  h.updatePort ((h p).of_eq fifo state)

theorem raise (h : StoresSound s) (kind : EventKind) (subject : SlotIdx) (detail : Word16) :
    StoresSound (s.raise kind subject detail) := h.of_ports rfl

theorem latch (h : StoresSound s) (n : Fin 17) : StoresSound (s.latch n) := h.of_ports rfl

theorem countPort (h : StoresSound s) (f : PortCounters → PortCounters) : StoresSound (s.countPort p f) :=
  h.updatePort_same rfl rfl

theorem updateFramer (h : StoresSound s) (f : Framer → Framer) : StoresSound (s.updateFramer p f) :=
  h.updatePort_same rfl rfl

theorem mgmtError (h : StoresSound s) (detail : Word16) : StoresSound (s.mgmtError p detail) :=
  (h.countPort _).raise _ _ _

theorem service (p : PortIdx) : KeptByService StoresSound p where
  buffer _ _ h := h.updatePort_same rfl rfl
  error _ _ h := h.mgmtError _
  queued _ _ h := h.of_ports rfl
  placed _ _ h := h.of_ports rfl

/-- R28: a qualifying port's store holds nothing, and a failed qualification leaves it so. -/
theorem failQualification (h : StoresSound s) (qualify : s.ports[p].state = .qualify) (detail : Word16) :
    StoresSound (s.failQualification p detail) := by
  have empty : s.ports[p].store.fifo = [] :=
    (h p).2 (by rw [qualify]; exact PortState.noConfusion) (by rw [qualify]; exact PortState.noConfusion)
  have failed : StoresSound (s.updatePort p Port.failQualification) := by
    refine h.updatePort (Port.storeSound_of_empty ?_)
    unfold Port.failQualification
    split <;> exact empty
  unfold State.failQualification
  dsimp only
  split
  · exact ((failed.raise _ _ _).latch _).latch _
  · exact (failed.raise _ _ _).latch _

/-- R35, R61: entry to LOST flushes the store. -/
theorem loseSource (h : StoresSound s) : StoresSound (s.loseSource p) :=
  ((h.updatePort (Port.storeSound_of_empty rfl)).raise _ _ _).latch _

/-- R24, R29: a completed window takes its port from QUALIFY to PRIME, or fails. -/
theorem takeWindow (h : StoresSound s) : StoresSound (s.takeWindow p) := by
  have counted : StoresSound (s.updatePort p Port.countDown) := h.updatePort_same rfl rfl
  unfold State.takeWindow
  dsimp only
  split
  · next done =>
    rw [Port.windowDone, Bool.and_eq_true, decide_eq_true_eq] at done
    unfold State.completeWindow
    split
    · exact counted.updatePort (Port.storeSound_of_filling (counted p).1 (.inl rfl))
    · exact counted.failQualification done.1 _
  · exact counted

theorem takeSilence (h : StoresSound s) : StoresSound (s.takeSilence p) := by
  have counted : StoresSound (s.updatePort p Port.countSilence) := h.updatePort_same rfl rfl
  unfold State.takeSilence
  dsimp only
  split
  · exact (service p).rejectFragment _ counted
  · exact counted

theorem reportSlip (h : StoresSound s) (detail : Word16) : StoresSound (s.reportSlip p detail) := by
  obtain ⟨events, hw⟩ := s.reportSlip_writes p detail
  rw [hw]
  exact h.of_ports rfl

/-- R57: a pick adds no frame. -/
theorem pickFrame (h : StoresSound s) : StoresSound (s.pickFrame p) := by
  have picked : StoresSound (s.updatePort p fun x => { x with store := x.store.pick x.isLocked }) := by
    refine h.updatePort ?_
    unfold Port.storeSound
    dsimp only
    rw [ElasticStore.pick_fifo]
    obtain ⟨few, empty⟩ := h p
    split
    · exact ⟨by rw [List.length_drop]; omega, fun prime locked => by rw [empty prime locked]; rfl⟩
    · exact ⟨few, empty⟩
  unfold State.pickFrame
  dsimp only
  split
  · exact (picked.countPort _).reportSlip _
  · exact picked

/-! ### Frames -/

theorem checkSequence (h : StoresSound s) (sequence : Byte) : StoresSound (s.checkSequence p sequence) := by
  rw [State.checkSequence_eq]
  exact h.updatePort_same rfl rfl

/-- R55: only a port in PRIME or LOCKED appends. -/
theorem storeArrival (h : StoresSound s) (filling : s.ports[p].state = .prime ∨ s.ports[p].state = .locked)
    (r : FrameRecord) : StoresSound (s.storeArrival p r) := by
  have appended : StoresSound ((s.updatePort p fun x => x.record s.timing.tick r.sequence).updatePort p
      fun x => { x with store := x.store.append r }) := by
    rw [State.updatePort_updatePort]
    exact h.updatePort (Port.storeSound_of_filling (ElasticStore.length_append_le (h p).1 r) filling)
  unfold State.storeArrival State.appendFrame
  dsimp only
  split
  · exact (appended.countPort _).reportSlip _
  · exact appended

/-- R30: a port that locks keeps its frames. -/
theorem lockIfPrimed (h : StoresSound s) : StoresSound (s.lockIfPrimed p) := by
  unfold State.lockIfPrimed
  split
  · have locked : StoresSound (s.updatePort p fun x => { x with state := .locked }) :=
      h.updatePort (Port.storeSound_of_filling (h p).1 (.inr rfl))
    exact locked.raise _ _ _
  · exact h

theorem qualifyArrival (h : StoresSound s) (qualify : s.ports[p].state = .qualify) (sequence : Byte) :
    StoresSound (s.qualifyArrival p sequence) := by
  have counted : StoresSound (s.updatePort p fun x => x.countArrival s.timing.tick sequence) := h.updatePort_same rfl rfl
  unfold State.qualifyArrival
  dsimp only
  split
  · refine counted.failQualification ?_ _
    rw [State.updatePort_port]
    exact qualify
  · exact counted

/-- R36: the port's state machine, by the state it finds. -/
theorem portArrival (h : StoresSound s) (r : FrameRecord) (reached : Bool) : StoresSound (s.portArrival p r reached) := by
  have waiting : s.ports[p].store.fifo = [] →
      StoresSound (if reached then s.updatePort p fun x => x.enterQualify s.timing.tick r.sequence else s) := fun empty => by
    split
    · exact h.updatePort (Port.storeSound_of_empty empty)
    · exact h
  unfold State.portArrival
  split
  · next hs => exact waiting ((h p).2 (by rw [hs]; exact PortState.noConfusion) (by rw [hs]; exact PortState.noConfusion))
  · next hs => exact waiting ((h p).2 (by rw [hs]; exact PortState.noConfusion) (by rw [hs]; exact PortState.noConfusion))
  · next hs => exact h.qualifyArrival hs _
  · next hs => exact (h.storeArrival (.inl hs) r).lockIfPrimed
  · next hs => exact h.storeArrival (.inr hs) r
  · exact h

theorem takeArrival (h : StoresSound s) (f : LaneFrame) (reached : Bool) : StoresSound (s.takeArrival p f reached) :=
  (service p).takeFragment _ _ ((h.checkSequence _).portArrival _ _)

theorem examineConfirming (h : StoresSound s) (f : LaneFrame) : StoresSound (s.examineConfirming p f) := by
  unfold State.examineConfirming
  split
  · split
    · exact h.updateFramer _
    · exact (h.updateFramer _).takeArrival f true
  · exact h.updateFramer _

/-- R8, R27, R35: a loss of alignment, by the state of the port. -/
theorem examineMissing (h : StoresSound s) : StoresSound (s.examineMissing p) := by
  unfold State.examineMissing
  split
  · exact h.updateFramer _
  · have misaligned : StoresSound (s.updatePort p fun _ => s.ports[p].misaligned) := h.updatePort_same rfl rfl
    rw [State.loseAlignment_eq]
    split
    · next hs =>
      refine misaligned.failQualification ?_ _
      rw [State.updatePort_port]
      exact hs
    · exact misaligned.loseSource
    · exact misaligned.loseSource
    all_goals exact misaligned

/-! ### Commands, boundaries and resets -/

/-- R39, R61: a change of the enable flushes the store; other settings leave it alone. -/
theorem configurePort (h : StoresSound s) (enable : Bool) (x : PortSettings) :
    StoresSound (configurePort s p enable x) := by
  unfold Machine.configurePort
  split
  · exact h.updatePort (Port.storeSound_of_empty (Port.setBack_fifo _ _))
  · split <;> exact h.updatePort_same rfl rfl

theorem restartPort (h : StoresSound s) : StoresSound (restartPort s p) := by
  unfold Machine.restartPort
  split
  · exact h.updatePort (Port.storeSound_of_empty (Port.setBack_fifo _ _))
  · exact h

theorem fixTiming (h : StoresSound s) : StoresSound s.fixTiming := by
  obtain ⟨timing, events, hw⟩ := s.fixTiming_writes
  rw [hw]
  exact h.of_ports rfl

theorem armPicks (h : StoresSound s) : StoresSound s.armPicks :=
  h.of_table (fun q => by rw [s.armPicks_port]) fun q => by rw [s.armPicks_port]

theorem armWorks (h : StoresSound s) : StoresSound s.armWorks :=
  h.of_table (fun q => by rw [s.armWorks_port]) fun q => by rw [s.armWorks_port]

theorem passTicks (h : StoresSound s) (n : Nat) : StoresSound (s.passTicks n) :=
  h.of_table (fun q => by rw [s.passTicks_port, State.nextTick_store])
    fun q => by rw [s.passTicks_port, State.nextTick_state]

/-- R62: every store is empty after a reset. -/
theorem afterReset (cause : ResetCause) (control : PortIdx) : StoresSound (State.afterReset cause control) := fun p => by
  have port := State.afterReset_port cause control [] p
  refine Port.storeSound_of_empty ?_
  exact (congrArg (fun x : Port => x.store.fifo) port).trans rfl

theorem softReset (s : State) : StoresSound s.softReset := by
  have flushed : StoresSound s.softResetValues := fun p => by
    rw [s.softResetValues_port]
    exact Port.storeSound_of_empty (Port.softReset_fifo _)
  exact (flushed.raise _ _ _).armWorks.fixTiming

theorem kept : KeptByLanes StoresSound where
  congr h ports _ := h.of_ports ports
  afterReset := afterReset
  softReset s _ := softReset s
  passTicks _ n h := h.passTicks n
  beginBoundary s h := (h.of_ports (t := s.beginPeriod.updateEvents EventUnit.ageRecords) rfl).armPicks.armWorks
  timing _ h := h.fixTiming
  window _ _ h := h.takeWindow
  loseSource _ _ h := h.loseSource
  silence _ _ h := h.takeSilence
  pick _ _ h := h.pickFrame
  candidate s p n f h := by
    unfold State.examineCandidate
    split <;> exact h.updateFramer _
  confirming _ _ f h := h.examineConfirming f
  arrival _ _ f h := (h.updateFramer _).takeArrival f _
  crcError _ _ h := (h.updateFramer _).countPort _
  missing _ _ h := h.examineMissing
  configurePort _ _ enable x h := h.configurePort enable x
  restartPort _ _ h := h.restartPort
  clearCounters s p clear h := by
    unfold Machine.clearCounters
    split
    · exact h.countPort _
    · exact h
  source _ _ h := h.of_ports rfl

end StoresSound

/-! ### R48, Table 15: the reference period -/

/-- R48: a tracked length is clamped to 507 to 517 ticks. -/
theorem clampPeriod_bounds (n : Nat) : 507 ≤ clampPeriod n ∧ clampPeriod n ≤ 517 := by
  unfold clampPeriod Config.shortestPeriod Config.longestPeriod
  omega

/-- R48, R49: the fix writes the timing unit, and the event unit where the state changes or is HOLDOVER. -/
theorem State.fixTiming_eq (s : State) :
    s.fixTiming =
      { s with
        timing := { s.timing with
          state := s.timingOutcome.1, periodLength := s.timingOutcome.2, remaining := s.timingOutcome.2, fixDue := false }
        events :=
          let raised := if s.timingOutcome.1 = s.timing.state then s.events else
            s.events.raise s.timing.periodCounter .timingState 0 (BitVec.ofNat 16 (timingCode s.timingOutcome.1))
          { raised with
            latched := if s.timingOutcome.1 = .holdover then raised.latched ||| BitVec.twoPow 17 12 else raised.latched } } := by
  unfold fixTiming
  dsimp only
  split <;> split <;> rfl

theorem State.fixTiming_timing (s : State) :
    s.fixTiming.timing =
      { s.timing with
        state := s.timingOutcome.1, periodLength := s.timingOutcome.2, remaining := s.timingOutcome.2, fixDue := false } := by
  rw [fixTiming_eq]

/-- Table 16: the length fixed, by the source and the length held before. -/
theorem State.timingOutcome_bounds {s : State} (short : 507 ≤ s.timing.periodLength) (long : s.timing.periodLength ≤ 517) :
    507 ≤ s.timingOutcome.2 ∧ s.timingOutcome.2 ≤ 517 ∧ (s.timingOutcome.1 = .free → s.timingOutcome.2 = 512) := by
  unfold timingOutcome
  split
  · exact ⟨by decide, by decide, fun _ => rfl⟩
  · split
    · exact ⟨(clampPeriod_bounds _).1, (clampPeriod_bounds _).2, TimingState.noConfusion⟩
    · exact ⟨short, long, TimingState.noConfusion⟩

namespace TimingSound

variable {s t : State}

theorem of_timing (h : TimingSound s) (timing : t.timing = s.timing) : TimingSound t := by
  unfold TimingSound
  rw [timing]
  exact h

/-- The bounds of the length held before are all that the fix rests on. -/
theorem fixTiming (short : 507 ≤ s.timing.periodLength) (long : s.timing.periodLength ≤ 517) : TimingSound s.fixTiming := by
  obtain ⟨shortest, longest, free⟩ := State.timingOutcome_bounds short long
  unfold TimingSound
  rw [s.fixTiming_timing]
  exact ⟨shortest, longest, le_refl _, free⟩

theorem afterReset (cause : ResetCause) (control : PortIdx) : TimingSound (State.afterReset cause control) :=
  (by decide : 507 ≤ resetTiming.periodLength ∧ resetTiming.periodLength ≤ 517 ∧
    resetTiming.remaining ≤ resetTiming.periodLength ∧ (resetTiming.state = .free → resetTiming.periodLength = 512))

theorem kept : KeptByLanes TimingSound where
  congr h _ timing := h.of_timing timing
  afterReset := afterReset
  softReset s _ := fixTiming (s := (s.softResetValues.raise .resetDone 0 ResetCause.soft.code).armWorks)
    (by decide : 507 ≤ Config.nominalPeriod) (by decide : Config.nominalPeriod ≤ 517)
  passTicks s n h := by
    obtain ⟨short, long, left, free⟩ := h
    exact ⟨short, long, (Nat.sub_le _ n).trans left, free⟩
  beginBoundary s h := by
    obtain ⟨short, long, -, free⟩ := h
    exact ⟨short, long, Nat.zero_le _, free⟩
  timing s h := by
    obtain ⟨short, long, -, -⟩ := h
    exact fixTiming short long
  window s p h := by
    obtain ⟨f, events, hw⟩ := s.takeWindow_writes p
    rw [hw]
    exact h.of_timing rfl
  loseSource _ _ h := h.of_timing rfl
  silence s p h := by
    obtain ⟨f, events, hw⟩ := s.takeSilence_writes p
    rw [hw]
    exact h.of_timing rfl
  pick s p h := by
    obtain ⟨f, events, hw⟩ := s.pickFrame_writes p
    rw [hw]
    exact h.of_timing rfl
  candidate s p n f h := by
    unfold State.examineCandidate
    split <;> exact h.of_timing rfl
  confirming s p f h := by
    unfold State.examineConfirming
    split
    · split
      · exact h.of_timing rfl
      · exact h.of_timing (takeArrival_keepsTurn (s.updateFramer p Framer.declareAligned) p f true).timing
    · exact h.of_timing rfl
  arrival s p f h := h.of_timing (takeArrival_keepsTurn (s.updateFramer p Framer.takeValid) p f _).timing
  crcError _ _ h := h.of_timing rfl
  missing s p h := by
    unfold State.examineMissing
    split
    · exact h.of_timing rfl
    · rw [State.loseAlignment_eq]
      split
      · obtain ⟨f, events, hw⟩ := (s.updatePort p fun _ => s.ports[p].misaligned).failQualification_writes p detailAlignment
        rw [hw]
        exact h.of_timing rfl
      all_goals exact h.of_timing rfl
  configurePort s p enable x h := by
    rw [configurePort_eq]
    exact h.of_timing rfl
  restartPort s p h := by
    rw [restartPort_eq]
    exact h.of_timing rfl
  clearCounters s p clear h := by
    cases clear <;> exact h.of_timing rfl
  source _ _ h := h

end TimingSound

end Sys2Proof.Machine

namespace Sys2Proof.Proofs
open Machine

/-- Settles O52: each operation that writes a port keeps the law of its store, so every step does. -/
theorem stepsKeepStoresSound : Obligations.StepsKeepStoresSound :=
  fun _ _ sound taken => StoresSound.kept.blocks.step_keeps sound taken

/-- Settles O53: the timing fix keeps the length in its bounds and starts the ticks left at it; time only counts them down. -/
theorem stepsKeepTimingSound : Obligations.StepsKeepTimingSound :=
  fun _ _ sound taken => TimingSound.kept.blocks.step_keeps sound taken

end Sys2Proof.Proofs
end

section
/-! PROOFS. The reset state (R44, R53, R62, R78, R111, R128, R144, R166, R183) meets the laws; a step and the queue of rows. -/

namespace Sys2Proof.Machine

/-! ### The reset values of each block and its law -/

/-- R66: a list of one term. -/
theorem listSound_straightList (i : SlotIdx) : listSound (straightList i) :=
  ⟨(by decide : 1 ≤ 4), List.nodup_singleton i⟩

theorem straightRecord_sound (i : SlotIdx) : (straightRecord i).sound :=
  ⟨listSound_straightList i, fun _ none => absurd none (Option.not_mem_none _)⟩

theorem resetContext_sound (i : SlotIdx) : (resetContext i).sound :=
  ⟨le_refl _, fun _ => rfl, Phase.noConfusion, fun _ => rfl, fun _ => ⟨rfl, rfl⟩, fun moving => absurd rfl moving,
    Nat.zero_le _⟩

theorem resetProtection_sound (r : RouteRecord) : resetProtection.sound r :=
  ⟨ListSelect.noConfusion, Bool.noConfusion, Bool.noConfusion, Bool.noConfusion⟩

theorem resetEgress_sound : resetEgress.sound := ⟨Nat.zero_le _, fun _ => ⟨rfl, rfl⟩⟩

theorem resetEvents_sound (cause : ResetCause) : (resetEvents cause).sound :=
  ⟨(by decide : 1 ≤ 32), List.nodup_singleton _, List.pairwise_singleton _ _, by cases cause <;> decide,
    fun r hr sending => by
      obtain rfl := List.mem_singleton.mp hr
      exact Bool.noConfusion sending⟩

/-! ### The laws of the whole state -/

section
variable (cause : ResetCause) (control : PortIdx) (rows : List Instr)

theorem routesSound_afterReset : RoutesSound ((State.afterReset cause control).withPending rows) := fun i => by
  rw [State.afterReset_route]
  exact ⟨straightRecord_sound i, straightRecord_sound i, fun _ => rfl⟩

theorem contextsSound_afterReset : ContextsSound ((State.afterReset cause control).withPending rows) := fun i => by
  rw [State.afterReset_slot]
  exact resetContext_sound i

theorem protectionSound_afterReset : ProtectionSound ((State.afterReset cause control).withPending rows) := fun i => by
  rw [State.afterReset_slot]
  exact .inr (resetProtection_sound _)

theorem channelSound_afterReset : ChannelSound ((State.afterReset cause control).withPending rows) := by
  refine ⟨Nat.zero_le _, fun _ queued => absurd queued List.not_mem_nil, fun e => ?_⟩
  rw [State.afterReset_egress]
  exact resetEgress_sound

theorem eventsSound_afterReset : EventsSound ((State.afterReset cause control).withPending rows) :=
  ⟨resetEvents_sound cause, rfl, rfl⟩

/-- R36, R49, R122: no condition holds. -/
theorem alarmsFollow_afterReset : AlarmsFollow ((State.afterReset cause control).withPending rows) := by
  refine ⟨fun p lost => ?_, TimingState.noConfusion, fun ⟨i, loss⟩ => ?_⟩
  · rw [State.afterReset_port] at lost
    exact PortState.noConfusion lost
  · rw [State.afterReset_slot] at loss
    exact Bool.noConfusion loss

end

end Sys2Proof.Machine

namespace Sys2Proof.Proofs
open Machine

/-- Settles O1: both clauses by the two cases of the queue. -/
theorem stepRunsTheFrontRow : Obligations.StepRunsTheFrontRow := by
  refine ⟨fun c s rest front => ?_, fun s empty => ?_⟩
  · rw [step, front]
  · rw [step, empty]

/-- Settles O51: the reset state is the power-on reset with control port 0 and an empty queue, and each block's reset values
meet its law. -/
theorem resetMeetsTheLaws : Obligations.ResetMeetsTheLaws := by
  have enables := enablesSound_iff.mp (EnablesSound.afterReset .powerOn 0 [])
  exact ⟨StoresSound.afterReset .powerOn 0, TimingSound.afterReset .powerOn 0, routesSound_afterReset .powerOn 0 [],
    contextsSound_afterReset .powerOn 0 [], protectionSound_afterReset .powerOn 0 [],
    channelSound_afterReset .powerOn 0 [], enables.1, enables.2, eventsSound_afterReset .powerOn 0 [],
    alarmsFollow_afterReset .powerOn 0 []⟩

end Sys2Proof.Proofs
end

section
/-! PROOFS. The pick of an elastic store (R57, R58, R60). -/

namespace Sys2Proof.Machine.State

variable {s : State} {p : PortIdx}

/-- R57: the pick's work, while the boundary is to be taken. -/
theorem exec_pick (due : s.ports[p].store.pickDue = true) :
    exec (.boundary (.only (.pick p))) s = .next (s.pickFrame p) :=
  congrArg Host.Outcome.next (if_pos due)

theorem isLocked_iff (q : Port) : q.isLocked = true ↔ q.state = .locked := decide_eq_true_iff

/-- R57, R58: a pick that takes a frame, or gives silence. -/
theorem pickFrame_of_fresh (fresh : s.ports[p].store.wouldRepeat s.ports[p].isLocked = false) :
    s.pickFrame p = s.updatePort p fun _ =>
      { s.ports[p] with store := s.ports[p].store.pick s.ports[p].isLocked } := by
  rw [pickFrame, fresh]
  exact s.updatePort_eq_const p _

/-- R57, R60: a pick that repeats is counted, and is a slip. -/
theorem pickFrame_of_repeat (again : s.ports[p].store.wouldRepeat s.ports[p].isLocked = true) :
    s.pickFrame p =
      (s.updatePort p fun _ =>
        { s.ports[p] with
          store := s.ports[p].store.pick s.ports[p].isLocked
          counters := { s.ports[p].counters with slipRepeats := saturatingInc s.ports[p].counters.slipRepeats }
          }).reportSlip p detailRepeat := by
  rw [pickFrame, again, if_pos rfl, countPort_eq, updatePort_updatePort, updatePort_eq_const]

end Sys2Proof.Machine.State

namespace Sys2Proof.Proofs
open Machine

/-- Settles O27: the pick is one update of its port, by its state and the frames its store holds; a repeat is then reported as
a slip. -/
theorem pickAssignsAFrame : Obligations.PickAssignsAFrame := by
  intro s p due
  rw [State.exec_pick due]
  refine ⟨fun r rest locked frames => ?_, fun locked empty => ?_, fun unlocked => ?_⟩
  · have isLocked := (State.isLocked_iff _).mpr locked
    rw [State.pickFrame_of_fresh (by rw [ElasticStore.wouldRepeat, frames]; exact Bool.and_false _), isLocked]
    refine congrArg _ (Eq.symm ((s.updatePort_eq_const p _).trans ?_))
    rw [ElasticStore.pick, frames]
    rfl
  · have isLocked := (State.isLocked_iff _).mpr locked
    rw [State.pickFrame_of_repeat (by rw [ElasticStore.wouldRepeat, isLocked, empty]; rfl), isLocked, State.reportSlip_eq,
      saturatingInc_eq]
    have picked : s.ports[p].store.pick true =
        ⟨[], s.ports[p].store.lastAssigned, .repeated, s.ports[p].store.lastAssigned, false, false⟩ := by
      rw [ElasticStore.pick, empty]
      rfl
    rw [picked]
    rfl
  · have notLocked : s.ports[p].isLocked = false := decide_eq_false unlocked
    rw [State.pickFrame_of_fresh (by rw [ElasticStore.wouldRepeat, notLocked]; rfl), notLocked]
    exact congrArg _ (Eq.symm (s.updatePort_eq_const p _))

end Sys2Proof.Proofs
end

section
/-! PROOFS. The five commands that write a configuration and nothing else (R51, R94, R143, R168, R182). -/

namespace Sys2Proof.Machine

variable {s : State} {older newer : List Message} {m : Message}

/-! ### TIMING_CONFIG -/

/-- R51: the byte of a source, read back. -/
theorem argSource_eq {src : Option PortIdx}
    (h : argByte m 3 = match src with
      | some p => p.val
      | none => 4) : argSource m = some src := by
  unfold argSource
  cases src with
  | some p => rw [argFin_eq.mpr h]
  | none =>
    have local4 : argByte m 3 = 4 := h
    have noPort : argFin m 3 4 = none := by simp [argFin, local4]
    rw [noPort, if_pos local4]

theorem timingConfigRule_eq {src : Option PortIdx} (length : messageLength m = 4) (source : argSource m = some src) :
    timingConfigRule m s = answer (s.ensureTiming.updateTiming fun t => { t with source := src }) .ok := by
  rw [timingConfigRule, source]
  exact if_pos length

namespace State

theorem ensureTiming_of_fixed (h : s.timing.fixDue = false) : s.ensureTiming = s := by
  rw [ensureTiming, h, if_neg (by decide)]

theorem ensureTiming_fixDue (s : State) : s.ensureTiming.timing.fixDue = false := by
  unfold ensureTiming
  split
  · rw [s.fixTiming_timing]
  · next fixed => simpa using fixed

/-- R48: of the timing unit, the fix leaves the boundary in progress and the period's number. -/
theorem ensureTiming_timing (s : State) :
    s.ensureTiming.timing.atBoundary = s.timing.atBoundary ∧
      s.ensureTiming.timing.periodCounter = s.timing.periodCounter := by
  unfold ensureTiming
  split
  · rw [s.fixTiming_timing]
    exact ⟨rfl, rfl⟩
  · exact ⟨rfl, rfl⟩

/-- R48: the fix writes the timing unit and the event unit alone. -/
theorem ensureTiming_writes (s : State) :
    ∃ timing events, s.ensureTiming = { s with timing := timing, events := events } := by
  unfold ensureTiming
  split
  · exact s.fixTiming_writes
  · exact ⟨s.timing, s.events, rfl⟩

end State

/-- R154: the timing fix leaves the processor's choice as it is. -/
theorem Turn.ensureTiming (turn : Turn s older m newer) : Turn s.ensureTiming older m newer := by
  have boundary := s.ensureTiming_timing.1.trans turn.boundary
  obtain ⟨timing, events, hw⟩ := s.ensureTiming_writes
  rw [hw] at boundary ⊢
  exact ⟨boundary, turn.turn, turn.executing, turn.queue, turn.heldBack, turn.room⟩

/-- R48, R154: the fix reads neither the queue nor the turn. -/
theorem taken_ensureTiming (s : State) (older newer : List Message) :
    (s.taken older newer).ensureTiming = s.ensureTiming.taken older newer := by
  rw [State.ensureTiming, taken_timing, State.ensureTiming]
  split
  · rw [State.fixTiming_eq, State.fixTiming_eq]
    rfl
  · rfl

/-! ### WRITE_PROFILE -/

theorem argWordFin_eq {i n : Nat} {x : Fin n} : argWordFin m i n = some x ↔ (argWord m i).toNat = x.val := by
  unfold argWordFin
  split
  · simp [Fin.ext_iff]
  · next h => exact iff_of_false (by simp) fun e => h (e ▸ x.isLt)

/-- R94: a profile in range is read back from its bytes. -/
theorem argProfile_eq {i : Fin 8} {x : Profile} (index : argByte m 3 = i.val) (fadeOut : (argWord m 4).toNat = x.fadeOut.val)
    (gap : argByte m 6 = x.gap.val) (fadeIn : (argWord m 7).toNat = x.fadeIn.val) (settle : argByte m 9 = x.settle.val) :
    argProfile m = some (i, x) := by
  rw [argProfile, argFin_eq.mpr index, argWordFin_eq.mpr fadeOut, argFin_eq.mpr gap, argWordFin_eq.mpr fadeIn,
    argFin_eq.mpr settle]

theorem writeProfileRule_eq {i : Fin 8} {x : Profile} (length : messageLength m = 10) (profile : argProfile m = some (i, x)) :
    writeProfileRule m s = answer (writeProfile s i x) .ok := by
  rw [writeProfileRule, profile]
  exact if_pos length

/-! ### EVENT_CONFIG -/

/-- R168: a kind is named by its code. -/
theorem argKind_eq {i : Nat} {k : Fin 20} (h : argByte m i = k.val + 1) : argKind m i = some k := by
  simp [argKind, h]

theorem eventConfigRule_eq {k : Fin 20} {enable : Bool} {priority : Fin 4} (length : messageLength m = 6)
    (kind : argByte m 3 = k.val + 1) (flag : argByte m 4 = if enable then 1 else 0) (level : argByte m 5 = priority.val)
    (allowed : enable = false → k ≠ EventKind.resetDone.index ∧ k ≠ EventKind.eventLoss.index) :
    eventConfigRule m s =
      answer (s.updateEvents fun u => { u with config := updateAt u.config k fun _ => ⟨enable, priority⟩ }) .ok := by
  have free : (!enable && kindFixed k) = false := by
    cases enable with
    | true => rfl
    | false => simpa [kindFixed] using allowed rfl
  rw [eventConfigRule, argKind_eq kind, argBool_eq.mpr flag, argFin_eq.mpr level]
  exact if_neg (by simp [length, free])

/-! ### MONITOR_CONFIG -/

theorem monitorConfigRule_eq {n : Fin 4} {enable below : Bool} {subject : SlotIdx} (length : messageLength m = 12)
    (number : argByte m 3 = n.val) (flag : argByte m 4 = if enable then 1 else 0) (slot : argByte m 5 = subject.val)
    (mode : argByte m 6 = if below then 1 else 0) (threshold : (argTriple m 7).toNat ≤ 8388608) (hold : argWord m 10 ≠ 0#16) :
    monitorConfigRule m s =
      answer (s.updateMonitor n fun x =>
        { enabled := enable, subject := subject, mode := if below then .below else .above,
          threshold := (argTriple m 7).toNat, hold := (argWord m 10).toNat, state := .under, runCount := 0,
          evalDue := x.evalDue }) .ok := by
  have held : 1 ≤ (argWord m 10).toNat :=
    Nat.one_le_iff_ne_zero.mpr fun zero => hold (BitVec.eq_of_toNat_eq zero)
  rw [monitorConfigRule, argMonitor, argFin_eq.mpr number, argBool_eq.mpr flag, argFin_eq.mpr slot, argBool_eq.mpr mode]
  exact if_pos (by simp [monitorLimits, length, threshold, held])

/-! ### ALARM_CONFIG -/

theorem alarmConfigRule_eq (length : messageLength m = 6) (mask : (argTriple m 3).toNat < 131072) :
    alarmConfigRule m s = answer (s.updateEvents fun u => { u with pinMask := (argTriple m 3).setWidth 17 }) .ok := by
  rw [alarmConfigRule, argAlarmMask, if_pos (by exact mask)]
  exact if_pos length

end Sys2Proof.Machine

namespace Sys2Proof.Proofs
open Machine

/-- Settles O6: each row is its owning rule on the state in which the processor has taken the command, and the rule is one
update; the timing fix can come before TIMING_CONFIG, since the fix and the taking of the command leave each other alone. -/
theorem configurationWritesTakeEffect : Obligations.ConfigurationWritesTakeEffect := by
  intro s older newer m turn control
  refine ⟨fun src code length source => ?_, fun i x code length index fadeOut gap fadeIn settle => ?_,
    fun k enable priority code length kind flag level allowed => ?_,
    fun n enable below subject code length number flag slot mode threshold hold => ?_, fun code length mask => ?_⟩
  · have argument := argSource_eq source
    have row : ∀ v : State, Turn v older m newer → m.source = v.channel.control →
        exec (.timingConfig m) v =
          .next ((answer ((v.taken older newer).ensureTiming.updateTiming fun t => { t with source := src }) .ok).deliver m) :=
      fun v turn control => by
        rw [← timingConfigRule_eq length argument]
        exact congrArg Host.Outcome.next (executeCommand_of_control turn code control _ _)
    refine ⟨fun _ => ⟨s.ensureTiming, rfl, ?_⟩, fun fixed => ?_⟩
    · have control' : m.source = s.ensureTiming.channel.control := by
        obtain ⟨timing, events, hw⟩ := s.ensureTiming_writes
        rw [hw]
        exact control
      rw [row s turn control, row _ turn.ensureTiming control', taken_ensureTiming, taken_ensureTiming,
        State.ensureTiming_of_fixed s.ensureTiming_fixDue]
    · rw [row s turn control, State.ensureTiming_of_fixed (by exact fixed), deliver_answer _ (by exact turn.room)]
      rfl
  · have row : exec (.writeProfile m) s = .next ((writeProfileRule m (s.taken older newer)).deliver m) :=
      congrArg Host.Outcome.next (executeCommand_of_control turn code control _ _)
    rw [row, writeProfileRule_eq length (argProfile_eq index fadeOut gap fadeIn settle), State.writeProfile_writes,
      deliver_answer _ (by exact turn.room)]
    rfl
  · have row : exec (.eventConfig m) s = .next ((eventConfigRule m (s.taken older newer)).deliver m) :=
      congrArg Host.Outcome.next (executeCommand_of_control turn code control _ _)
    rw [row, eventConfigRule_eq length kind flag level allowed, deliver_answer _ (by exact turn.room)]
    rfl
  · have row : exec (.monitorConfig m) s = .next ((monitorConfigRule m (s.taken older newer)).deliver m) :=
      congrArg Host.Outcome.next (executeCommand_of_control turn code control _ _)
    rw [row, monitorConfigRule_eq length number flag slot mode threshold hold, deliver_answer _ (by exact turn.room)]
    rfl
  · have row : exec (.alarmConfig m) s = .next ((alarmConfigRule m (s.taken older newer)).deliver m) :=
      congrArg Host.Outcome.next (executeCommand_of_control turn code control _ _)
    rw [row, alarmConfigRule_eq length mask, deliver_answer _ (by exact turn.room)]
    rfl

end Sys2Proof.Proofs
end

section
/-! PROOFS. The passing of time (R34, R40): which miss timer expires first, and ticks that pass in one row or in two. -/

namespace Sys2Proof.Machine

/-! ### The tick at which a miss timer expires -/

/-- R34, R40: a running timer's comparison, now by the window in force and later by that of the settings. -/
theorem Port.expiryTick_eq {q : Port} {a : RecordedArrival} (last : q.lastArrival = some a)
    (runs : q.state = .prime ∨ q.state = .locked) (now : Nat) :
    q.expiryTick now =
      some (if q.missWindow < now - a.tick then now else max (a.tick + q.nextTick.missWindow + 1) (now + 1)) := by
  have running : q.timerRuns = true := by simpa [timerRuns] using runs
  have exceeded := missExceeded_iff last runs now
  unfold expiryTick
  rw [running, last]
  by_cases late : q.missWindow < now - a.tick
  · rw [if_pos (exceeded.mpr late), if_pos late]
  · rw [if_neg (mt exceeded.mp late), if_neg late]
    rfl

/-- R34: an idle timer does not expire. -/
theorem Port.expiryTick_runs {q : Port} {now t : Nat} (h : q.expiryTick now = some t) :
    (q.state = .prime ∨ q.state = .locked) ∧ ∃ a, q.lastArrival = some a := by
  unfold expiryTick missExceeded missElapsed at h
  cases last : q.lastArrival with
  | none => simp [last] at h
  | some a =>
    refine ⟨?_, a, rfl⟩
    by_contra idle
    have stopped : q.timerRuns = false := by simpa [timerRuns] using idle
    simp [stopped] at h

/-- R34: the model's tick of expiry is the first at which the count exceeds the window. -/
theorem expiryTick_eq_some_iff {s : State} {p : PortIdx} {t : Nat} :
    s.ports[p].expiryTick s.timing.tick = some t ↔ ExpiresAt s p t := by
  constructor
  · intro h
    obtain ⟨runs, a, last⟩ := Port.expiryTick_runs h
    rw [Port.expiryTick_eq last runs, Option.some_inj] at h
    have other : ∀ {u}, TimerExceeds s p u →
        (if u = s.timing.tick then s.ports[p].missWindow else s.ports[p].nextTick.missWindow) < u - a.tick := by
      rintro u ⟨b, hb, -, exceeds⟩
      obtain rfl : a = b := Option.some_inj.mp (last.symm.trans hb)
      exact exceeds
    split at h
    · next late =>
      subst h
      exact ⟨le_refl _, ⟨a, last, runs, by rwa [if_pos rfl]⟩, fun u low high => absurd low (by omega)⟩
    · next intime =>
      refine ⟨by omega, ⟨a, last, runs, by rw [if_neg (by omega)]; omega⟩, fun u low high exceeds => ?_⟩
      have := other exceeds
      split at this
      · next same => subst same; exact intime this
      · omega
  · rintro ⟨low, ⟨a, last, runs, exceeds⟩, first⟩
    rw [Port.expiryTick_eq last runs, Option.some_inj]
    have fits : ∀ {u}, s.timing.tick ≤ u → u < t →
        u - a.tick ≤ if u = s.timing.tick then s.ports[p].missWindow else s.ports[p].nextTick.missWindow :=
      fun {u} hu ht => Nat.not_lt.mp fun e => first u hu ht ⟨a, last, runs, e⟩
    by_cases now : t = s.timing.tick
    · rw [if_pos now] at exceeds
      subst now
      rw [if_pos exceeds]
    · rw [if_neg now] at exceeds
      have here := fits (le_refl _) (by omega)
      rw [if_pos rfl] at here
      rw [if_neg (by omega)]
      by_contra early
      have before := fits (u := t - 1) (by omega) (by omega)
      split at before <;> omega

/-- R34, R40: the timers that run then expire at the same ticks when the ticks before have passed. -/
theorem Port.expiryTick_nextTick {q : Port} {now k : Nat} (some : k ≠ 0)
    (quiet : ∀ t, q.expiryTick now = .some t → now + k ≤ t) : q.nextTick.expiryTick (now + k) = q.expiryTick now := by
  by_cases running : (q.state = .prime ∨ q.state = .locked) ∧ ∃ a, q.lastArrival = .some a
  · obtain ⟨runs, a, last⟩ := running
    have late := quiet _ (expiryTick_eq last runs now)
    have same : q.nextTick.nextTick = q.nextTick := rfl
    rw [expiryTick_eq (q := q.nextTick) last runs, expiryTick_eq last runs, Option.some_inj, same]
    split at late <;> split <;> omega
  · have idle : ∀ r : Port, r.state = q.state → r.lastArrival = q.lastArrival → ∀ t, r.expiryTick t = none := by
      intro r state last t
      by_contra expires
      obtain ⟨u, hu⟩ := Option.ne_none_iff_exists'.mp expires
      have := expiryTick_runs hu
      rw [state, last] at this
      exact running this
    rw [idle q rfl rfl, idle q.nextTick rfl rfl]

namespace State

variable {s t : State} {p : PortIdx} {now limit k n : Nat}

/-! ### The timer that expires first -/

/-- R34: no running timer expires before a tick. -/
def QuietUntil (s : State) (now limit : Nat) : Prop :=
  ∀ (q : PortIdx) (t : Nat), s.ports[q].expiryTick now = some t → limit ≤ t

/-- R34: of the best expiry so far and a port's own, the earlier; of equal ones the best so far. -/
def earlierExpiry (s : State) (now limit : Nat) (best : Option (PortIdx × Nat)) (p : PortIdx) : Option (PortIdx × Nat) :=
  match s.ports[p].expiryTick now with
  | some t =>
    if t < limit then
      match best with
      | some (q, u) => if t < u then some (p, t) else some (q, u)
      | none => some (p, t)
    else best
  | none => best

theorem nextExpiry_eq (s : State) (now limit : Nat) :
    s.nextExpiry now limit = (List.finRange 4).foldl (s.earlierExpiry now limit) none := rfl

theorem nextExpiry_congr {now' : Nat}
    (h : ∀ q : PortIdx, t.ports[q].expiryTick now' = s.ports[q].expiryTick now) :
    t.nextExpiry now' limit = s.nextExpiry now limit := by
  have same : t.earlierExpiry now' limit = s.earlierExpiry now limit := by
    funext best p
    rw [earlierExpiry, h p]
    rfl
  rw [nextExpiry_eq, nextExpiry_eq, same]

/-- A port whose timer expires no earlier than the limit, or than the best so far, leaves the best as it is. -/
theorem earlierExpiry_of_later {best : Option (PortIdx × Nat)}
    (h : ∀ t, s.ports[p].expiryTick now = some t → limit ≤ t ∨ ∃ q u, best = some (q, u) ∧ u ≤ t) :
    s.earlierExpiry now limit best p = best := by
  unfold earlierExpiry
  split
  · next t ht =>
    rcases h t ht with late | ⟨q, u, rfl, hu⟩
    · exact if_neg (by omega)
    · dsimp only
      rw [if_neg (by omega : ¬t < u), ite_self]
  · rfl

/-- A port whose timer expires before the limit and before the best so far becomes the best. -/
theorem earlierExpiry_of_earlier {best : Option (PortIdx × Nat)} {u : Nat} (expires : s.ports[p].expiryTick now = some u)
    (early : u < limit) (h : ∀ q v, best = some (q, v) → u < v) : s.earlierExpiry now limit best p = some (p, u) := by
  unfold earlierExpiry
  rw [expires]
  dsimp only
  rw [if_pos early]
  split
  · next q v => exact if_pos (h q v rfl)
  · rfl

theorem nextExpiry_of_quiet (h : s.QuietUntil now limit) : s.nextExpiry now limit = none := by
  rw [nextExpiry_eq]
  exact foldl_keeps (P := (· = none)) (fun best q hb => by
    rw [earlierExpiry_of_later fun t ht => .inl (h q t ht), hb]) rfl

/-- R34: the earliest expiry of all, of equal ones the lowest port's. -/
theorem nextExpiry_of_first {u : Nat} (expires : s.ports[p].expiryTick now = some u) (early : u < limit)
    (first : ∀ q v, s.ports[q].expiryTick now = some v → u < v ∨ u = v ∧ p ≤ q) :
    s.nextExpiry now limit = some (p, u) := by
  have after : ∀ l : List PortIdx, l.foldl (s.earlierExpiry now limit) (some (p, u)) = some (p, u) := fun l =>
    foldl_keeps (P := (· = some (p, u))) (fun best q hb => by
      subst hb
      exact earlierExpiry_of_later fun v hv => .inr ⟨p, u, rfl, by rcases first q v hv with h | h <;> omega⟩) rfl
  have before : ∀ (l : List PortIdx) (best : Option (PortIdx × Nat)), l.Pairwise (· < ·) → p ∈ l →
      (∀ q v, best = some (q, v) → u < v) → l.foldl (s.earlierExpiry now limit) best = some (p, u) := by
    intro l
    induction l with
    | nil => exact fun _ _ mem => absurd mem List.not_mem_nil
    | cons q l ih =>
      intro best sorted mem later
      obtain ⟨ahead, sorted⟩ := List.pairwise_cons.mp sorted
      rw [List.foldl_cons]
      rcases List.mem_cons.mp mem with rfl | mem
      · rw [earlierExpiry_of_earlier expires early later]
        exact after l
      · refine ih _ sorted mem fun r v hr => ?_
        have low := ahead p mem
        unfold earlierExpiry at hr
        split at hr
        · next t ht =>
          have late : u < t := by
            rcases first q t ht with h | ⟨-, h⟩
            · exact h
            · exact absurd low (not_lt.mpr h)
          split at hr
          · split at hr
            · split at hr
              · cases hr; exact late
              · exact later r v hr
            · cases hr; exact late
          · exact later r v hr
        · exact later r v hr
  rw [nextExpiry_eq]
  exact before _ none (List.pairwise_lt_finRange 4) (List.mem_finRange p) (fun _ _ none => absurd none (by simp))

/-! ### Timers that expire one after another -/

theorem expireBefore_of_quiet (h : s.QuietUntil now limit) (n : Nat) : expireBefore now limit n s = s := by
  cases n with
  | zero => rfl
  | succ n =>
    rw [expireBefore, nextExpiry_of_quiet h]

theorem expireBefore_succ {u : Nat} (h : s.nextExpiry now limit = some (p, u)) (n : Nat) :
    expireBefore now limit (n + 1) s = expireBefore now limit n (s.loseSource p) := by
  rw [expireBefore, h]

/-- R35: a port that loses its source is in LOST, and the others are as they were. -/
theorem loseSource_port (s : State) (p q : PortIdx) :
    (s.loseSource p).ports[q] = if p = q then s.ports[q].enterLost else s.ports[q] := by
  have ports : (s.loseSource p).ports = updateAt s.ports p Port.enterLost := rfl
  rw [ports]
  split
  · next h => subst h; exact updateAt_get_self _ _ _
  · next h => exact updateAt_get_ne _ _ h

theorem expiryTick_enterLost (q : Port) (now : Nat) : q.enterLost.expiryTick now = none := by
  by_contra expires
  obtain ⟨t, ht⟩ := Option.ne_none_iff_exists'.mp expires
  rcases (Port.expiryTick_runs ht).1 with h | h <;> exact PortState.noConfusion h

theorem QuietUntil.loseSource (h : s.QuietUntil now limit) (p : PortIdx) : (s.loseSource p).QuietUntil now limit := by
  intro q t ht
  rw [loseSource_port] at ht
  split at ht
  · rw [expiryTick_enterLost] at ht
    exact absurd ht (by simp)
  · exact h q t ht

/-- The ports whose miss timers run. -/
def running (s : State) : Finset PortIdx := Finset.univ.filter fun q => s.ports[q].timerRuns = true

theorem running_loseSource (s : State) (p : PortIdx) : (s.loseSource p).running = s.running.erase p := by
  ext q
  rw [running, Finset.mem_filter, loseSource_port, Finset.mem_erase, running, Finset.mem_filter]
  by_cases h : p = q
  · subst h
    simp [Port.timerRuns, Port.enterLost]
  · simp [h, Ne.symm h]

/-- R34: no more timers expire than run. -/
theorem expireBefore_enough (now limit : Nat) (few : s.running.card ≤ n) :
    expireBefore now limit (n + 1) s = expireBefore now limit n s := by
  induction n generalizing s with
  | zero =>
    have none : s.nextExpiry now limit = none := by
      by_contra expires
      obtain ⟨⟨p, t⟩, h⟩ := Option.ne_none_iff_exists'.mp expires
      have : p ∈ s.running := Finset.mem_filter.mpr ⟨Finset.mem_univ p, nextExpiry_runs h⟩
      rw [Finset.card_eq_zero.mp (Nat.le_zero.mp few)] at this
      exact absurd this (Finset.notMem_empty p)
    simp only [expireBefore, none]
  | succ n ih =>
    rw [expireBefore, expireBefore]
    split
    · next p t h =>
      refine ih ?_
      have runs : p ∈ s.running := Finset.mem_filter.mpr ⟨Finset.mem_univ p, nextExpiry_runs h⟩
      rw [running_loseSource, Finset.card_erase_of_mem runs]
      omega
    · rfl

/-- R34: the timer that expires first takes its port to LOST before the others. -/
theorem expireBefore_of_first {u : Nat} (h : s.nextExpiry now limit = some (p, u)) :
    expireBefore now limit 4 s = expireBefore now limit 4 (s.loseSource p) := by
  have runs : p ∈ s.running := Finset.mem_filter.mpr ⟨Finset.mem_univ p, nextExpiry_runs h⟩
  have all : s.running.card ≤ 4 := (Finset.card_le_univ _).trans_eq (Fintype.card_fin 4)
  rw [expireBefore_succ h, eq_comm]
  refine expireBefore_enough now limit ?_
  rw [running_loseSource, Finset.card_erase_of_mem runs]
  omega

/-! ### Ticks that pass at once or in two parts -/

theorem mapTable_mapTable {α β γ : Type} {n : Nat} (v : Vector α n) (f : α → β) (g : β → γ) :
    mapTable (mapTable v f) g = mapTable v fun x => g (f x) :=
  table_ext fun j => by simp

theorem passTicks_passTicks (s : State) (k n : Nat) : (s.passTicks k).passTicks n = s.passTicks (k + n) := by
  unfold passTicks
  dsimp only
  rw [mapTable_mapTable, Nat.add_assoc, Nat.sub_sub]
  rfl

/-- R35, R40: a loss before the ticks pass or after them. -/
theorem loseSource_passTicks (s : State) (p : PortIdx) (k : Nat) :
    (s.passTicks k).loseSource p = (s.loseSource p).passTicks k := by
  have ports : updateAt (mapTable s.ports Port.nextTick) p Port.enterLost =
      mapTable (updateAt s.ports p Port.enterLost) Port.nextTick := by
    refine table_ext fun q => ?_
    by_cases h : p = q
    · subst h; simp [Port.nextTick, Port.enterLost]
    · simp [Fin.val_inj, h]
  unfold loseSource passTicks updatePort
  dsimp only
  rw [ports]
  rfl

/-- R34, R40: before ticks at which no timer expires, or after them, the same timers expire. -/
theorem expireBefore_passTicks (some : k ≠ 0) (quiet : s.QuietUntil now (now + k)) (limit n : Nat) :
    expireBefore (now + k) limit n (s.passTicks k) = (expireBefore now limit n s).passTicks k := by
  induction n generalizing s with
  | zero => rfl
  | succ n ih =>
    have same : (s.passTicks k).nextExpiry (now + k) limit = s.nextExpiry now limit :=
      nextExpiry_congr fun q => by
        rw [passTicks_port]
        exact Port.expiryTick_nextTick some (quiet q)
    rw [expireBefore, same, expireBefore]
    split
    · next p t _ => rw [loseSource_passTicks, ih (quiet.loseSource p)]
    · rfl

theorem letPass_of_quiet (h : s.QuietUntil s.timing.tick (s.timing.tick + n)) : s.letPass n = s.passTicks n := by
  rw [letPass, expireBefore_of_quiet h]

/-- R34: ticks that pass are ticks up to the first expiry and the ticks left. -/
theorem letPass_add (some : k ≠ 0) (quiet : s.QuietUntil s.timing.tick (s.timing.tick + k)) (n : Nat) :
    s.letPass (k + n) = (s.passTicks k).letPass n := by
  have tick : (s.passTicks k).timing.tick = s.timing.tick + k := rfl
  rw [letPass, letPass, tick, expireBefore_passTicks some quiet, passTicks_passTicks, Nat.add_assoc]

theorem quietUntil_of_first {u : Nat} (first : ExpiresFirst s p u) : s.QuietUntil s.timing.tick u := by
  intro q v hv
  rcases first.2 q v (expiryTick_eq_some_iff.mp hv) with h | ⟨h, -⟩
  · exact h.le
  · exact h.le

/-- R34: the first expiry, as a row of its own, at its tick. -/
theorem letPass_of_first (first : ExpiresFirst s p (s.timing.tick + k)) (h : k < n) :
    s.letPass n =
      ((if k = 0 then s else s.passTicks k).loseSource p).letPass (n - k) := by
  have next : s.nextExpiry s.timing.tick (s.timing.tick + n) = some (p, s.timing.tick + k) :=
    nextExpiry_of_first (expiryTick_eq_some_iff.mpr first.1) (by omega) fun q v hv =>
      first.2 q v (expiryTick_eq_some_iff.mp hv)
  have lost : s.letPass n = (s.loseSource p).letPass n := by
    rw [letPass, expireBefore_of_first next]
    rfl
  rw [lost]
  split
  · next now => rw [now, Nat.sub_zero]
  · next later =>
    have split : n = k + (n - k) := by omega
    rw [loseSource_passTicks, ← letPass_add later ((quietUntil_of_first first).loseSource p), ← split]

/-- R34: the row MISS_TIMEOUT at the tick of the first expiry. -/
theorem expireIfExceeded_of_first (first : ExpiresFirst s p (s.timing.tick + k)) :
    (if k = 0 then s else s.passTicks k).expireIfExceeded p = (if k = 0 then s else s.passTicks k).loseSource p := by
  obtain ⟨⟨-, ⟨a, last, runs, exceeds⟩, -⟩, -⟩ := first
  refine if_pos ?_
  split at exceeds
  · next now =>
    obtain rfl : k = 0 := by omega
    exact (Port.missExceeded_iff last runs _).mpr exceeds
  · next later =>
    rw [if_neg (by omega : k ≠ 0), passTicks_port]
    exact (Port.missExceeded_iff (q := s.ports[p].nextTick) last runs _).mpr exceeds

/-! ### Rows of the passing of time, away from a boundary -/

theorem finishBoundary_of_passed (h : s.timing.atBoundary = false) : s.finishBoundary = s := by
  rw [finishBoundary, h, if_neg (by decide)]

/-- R46: a row short of the next boundary falls at its own tick. -/
theorem elapse_of_passed (h : s.timing.atBoundary = false) (some : n ≠ 0) (short : n < s.timing.remaining) :
    s.elapse n = s.letPass n := by
  rw [elapse, if_neg some, finishBoundary_of_passed h, ticksToPass, Nat.min_eq_left (by omega)]

/-- R34: the timers of the statements' premise. -/
theorem quietUntil_of_noExpiryBefore (h : NoExpiryBefore s limit) : s.QuietUntil s.timing.tick limit := by
  intro q t expires
  obtain ⟨runs, a, last⟩ := Port.expiryTick_runs expires
  obtain ⟨here, later⟩ := h q a last runs
  rw [Port.expiryTick_eq last runs, Option.some_inj, if_neg (by omega)] at expires
  omega

/-- R46: the opening of a boundary: the ticks left pass, and every work at it becomes due. -/
theorem openBoundary_of_passed (h : s.timing.atBoundary = false) :
    s.openBoundary =
      ((s.letPass s.timing.remaining).beginPeriod.updateEvents EventUnit.ageRecords).armPicks.armWorks := by
  rw [openBoundary, finishBoundary_of_passed h]

end State

/-- R48: the clamp as the statement gives it. -/
theorem clampPeriod_eq (n : Nat) : clampPeriod n = if n < 507 then 507 else if 517 < n then 517 else n := by
  unfold clampPeriod Config.shortestPeriod Config.longestPeriod
  split_ifs <;> omega

/-- R48, Table 16: the outcome of the fix, by the source's state and average. -/
theorem State.timingOutcome_eq (s : State) :
    s.timingOutcome = match s.timing.source with
      | none => (.free, 512)
      | some p =>
        match s.ports[p].state, s.ports[p].average with
        | .locked, some a => (.tracking, if a < 507 then 507 else if 517 < a then 517 else a)
        | _, _ => (.holdover, s.timing.periodLength) := by
  unfold timingOutcome Port.isLocked
  cases s.timing.source with
  | none => rfl
  | some p =>
    dsimp only
    simp only [clampPeriod_eq]
    cases s.ports[p].state <;> cases s.ports[p].average <;> rfl

/-- R174: the ages, as the statement gives them. -/
theorem EventUnit.ageRecords_eq (u : EventUnit) :
    u.ageRecords =
      { u with
        queue := u.queue.map fun r => if r.state = .outstanding ∧ r.stalled = false then { r with age := r.age + 1 } else r } := by
  unfold ageRecords isOutstanding
  simp

end Sys2Proof.Machine

namespace Sys2Proof.Proofs
open Machine

/-- Settles O25: the ticks of an opening pass and then every work becomes due; the fix is its closed form; ticks short of the
boundary pass alone; and ticks at which a timer expires pass up to the first expiry, which is the row MISS_TIMEOUT, and then
the ticks left. -/
theorem boundaryOpensThePeriod : Obligations.BoundaryOpensThePeriod := by
  refine ⟨fun s passed quiet => ?opening, fun s state length due outcome => ?fix, fun s n passed some short quiet => ?ticks,
    fun s p k passed short first => ?expiry⟩
  case opening =>
    have opened : exec (.boundary .opening) s = .next s.openBoundary := rfl
    rw [opened, State.openBoundary_of_passed passed, State.letPass_of_quiet (State.quietUntil_of_noExpiryBefore quiet),
      State.updateEvents, EventUnit.ageRecords_eq, State.armWorks, State.armPicks, State.beginPeriod, State.passTicks]
    simp only [State.updateTiming, State.mapTable_mapTable, Nat.sub_self]
    rfl
  case fix =>
    have fixed : exec (.boundary (.only .timing)) s = .next s.fixTiming := congrArg Host.Outcome.next (if_pos due)
    have fixes : s.timingOutcome = (state, length) := s.timingOutcome_eq.trans outcome.symm
    rw [fixed, s.fixTiming_eq, fixes]
    cases state <;> rfl
  case ticks =>
    rw [State.elapse_of_passed passed some short, State.letPass_of_quiet (State.quietUntil_of_noExpiryBefore quiet)]
    rfl
  case expiry =>
    obtain ⟨u, hu⟩ : ∃ u, u = (if k = 0 then s else s.passTicks k).loseSource p := ⟨_, rfl⟩
    have splits : ∀ n, k < n → s.letPass n = u.letPass (n - k) := fun n h => hu ▸ State.letPass_of_first first h
    have there : s.elapse k = if k = 0 then s else s.passTicks k := by
      split
      · next now => rw [now, State.elapse, if_pos rfl]
      · next later =>
        rw [State.elapse_of_passed passed later short, State.letPass_of_quiet (State.quietUntil_of_first first)]
    have row : exec (.missTimeout p k) s = .next u := by
      have expires : exec (.missTimeout p k) s = .next ((s.elapse k).expireIfExceeded p) := rfl
      rw [expires, there, State.expireIfExceeded_of_first first, hu]
    have timing : u.timing = { s.timing with
        tick := s.timing.tick + k, remaining := s.timing.remaining - k, atBoundary := false } := by
      rw [hu]
      split
      · next now =>
        rw [now, ← passed]
        rfl
      · rfl
    have passed' : u.timing.atBoundary = false := by rw [timing]
    have left : u.timing.remaining = s.timing.remaining - k := by rw [timing]
    refine ⟨u, row, ?_, by rw [timing], ?_, fun n h short => ?_⟩
    · rw [hu, State.loseSource_port, if_pos rfl]
      rfl
    · have opens : ∀ v : State, exec (.boundary .opening) v = .next v.openBoundary := fun _ => rfl
      rw [opens, opens, State.openBoundary_of_passed passed, State.openBoundary_of_passed passed', left, splits _ short]
    · rw [State.elapse_of_passed passed (by omega) short, State.elapse_of_passed passed' (by omega) (by omega), splits n h]

end Sys2Proof.Proofs
end

section
/-! PROOFS. The reports that have timed out (R174, R175), and what makes none time out again before the next boundary. -/

namespace Sys2Proof.Machine

namespace EventUnit

variable {u : EventUnit}

/-- R174: the age of no OUTSTANDING record that the stall does not hold has reached the timeout. -/
def Punctual (u : EventUnit) : Prop := ∀ r ∈ u.queue, timedOut r = false

theorem timedOut_eq_false_iff (r : EventRecord) :
    timedOut r = false ↔ (r.state = .outstanding → r.stalled = false → r.age < 1024) := by
  unfold timedOut isOutstanding Config.reportTimeout
  cases r.state <;> cases r.stalled <;> simp

theorem timedOut_of_unsent {r : EventRecord} (h : r.state = .unsent) : timedOut r = false := by
  rw [timedOut, isOutstanding, h]
  rfl

/-- R174, R175: a timeout leaves its record UNSENT or held by the stall. -/
theorem timedOut_timeOutRecord (r : EventRecord) : timedOut (timeOutRecord r) = false := by
  unfold timeOutRecord
  split
  · exact timedOut_of_unsent rfl
  · simp [timedOut]

/-! ### The timeouts of a boundary -/

/-- R174, R175: the records with these numbers that have timed out. -/
def expires (numbers : List Word16) (r : EventRecord) : Bool := decide (r.sequence ∈ numbers) && timedOut r

/-- R175: the timeout of one of these records stalls the path. -/
def stallsAny (numbers : List Word16) (u : EventUnit) : Bool :=
  u.queue.any fun r => expires numbers r && decide (4 ≤ r.sendCount)

/-- R174, R175: the timeouts of all the records with these numbers, taken together. -/
def timeOutAll (numbers : List Word16) (u : EventUnit) : EventUnit :=
  { u with
    queue := u.queue.map fun r => if expires numbers r then timeOutRecord r else r
    path := if stallsAny numbers u then .stalled else u.path
    latched := if stallsAny numbers u then u.latched ||| alarmBit alarmReportStall else u.latched }

theorem timeOut_eq (n : Word16) (u : EventUnit) : u.timeOut n = u.timeOutAll [n] := by
  have records : (fun r => if r.sequence = n then if timedOut r then timeOutRecord r else r else r) =
      fun r => if expires [n] r then timeOutRecord r else r := by
    funext r
    by_cases same : r.sequence = n <;> simp [expires, same]
  have stalling : stalls n = fun r => expires [n] r && decide (4 ≤ r.sendCount) := by
    funext r
    have numbered : decide (r.sequence ∈ [n]) = decide (r.sequence = n) := by simp
    rw [expires, numbered]
    rfl
  rw [timeOut, updateRecord, records, stalling, timeOutAll, stallsAny]
  cases u.queue.any fun r => expires [n] r && decide (4 ≤ r.sendCount) <;> rfl

/-- R174: what has timed out once does not time out again. -/
theorem expires_timedOut (a b : List Word16) (r : EventRecord) :
    expires b (if expires a r then timeOutRecord r else r) = (expires b r && !expires a r) := by
  cases h : expires a r with
  | true => simp [expires, timedOut_timeOutRecord]
  | false => simp

theorem expires_append (a b : List Word16) (r : EventRecord) : expires (a ++ b) r = (expires a r || expires b r) := by
  simp only [expires, List.mem_append, Bool.decide_or]
  cases timedOut r <;> simp

theorem sendCount_timedOut (a : List Word16) (r : EventRecord) :
    (if expires a r then timeOutRecord r else r).sendCount = r.sendCount := by
  unfold timeOutRecord
  split
  · split <;> rfl
  · rfl

/-- R174: timeouts one after another; the later find the earlier taken. -/
theorem timeOutAll_timeOutAll (a b : List Word16) (u : EventUnit) :
    (u.timeOutAll a).timeOutAll b = u.timeOutAll (a ++ b) := by
  have records : (u.timeOutAll a).queue.map (fun r => if expires b r then timeOutRecord r else r) =
      u.queue.map fun r => if expires (a ++ b) r then timeOutRecord r else r := by
    rw [timeOutAll, List.map_map]
    refine List.map_congr_left fun r _ => ?_
    rw [Function.comp_apply, expires_timedOut, expires_append]
    cases expires a r <;> cases expires b r <;> rfl
  have stalling : stallsAny (a ++ b) u = (stallsAny a u || stallsAny b (u.timeOutAll a)) := by
    unfold stallsAny timeOutAll
    rw [List.any_map, Bool.eq_iff_iff]
    simp only [List.any_eq_true, Bool.or_eq_true, Function.comp_apply, expires_timedOut, expires_append, sendCount_timedOut]
    constructor
    · rintro ⟨r, hr, h⟩
      cases ha : expires a r with
      | true => exact .inl ⟨r, hr, by simpa [ha] using h⟩
      | false => exact .inr ⟨r, hr, by simpa [ha] using h⟩
    · rintro (⟨r, hr, h⟩ | ⟨r, hr, h⟩)
      · exact ⟨r, hr, by simp_all⟩
      · exact ⟨r, hr, by simp_all⟩
  unfold timeOutAll at records stalling ⊢
  rw [records, stalling]
  cases stallsAny a u <;> cases stallsAny b _ <;> simp [BitVec.or_assoc]

theorem foldl_timeOut (l : List EventRecord) (u : EventUnit) :
    l.foldl (fun u r => u.timeOut r.sequence) u = u.timeOutAll (l.map (·.sequence)) := by
  induction l generalizing u with
  | nil => simp [timeOutAll, stallsAny, expires]
  | cons r l ih => rw [List.foldl_cons, ih, timeOut_eq, timeOutAll_timeOutAll]; rfl

/-- R174: of all the records' numbers, those of the records that have timed out are enough. -/
theorem timeOutAll_filter (u : EventUnit) :
    u.timeOutAll ((u.queue.filter timedOut).map (·.sequence)) = u.timeOutAll (u.queue.map (·.sequence)) := by
  have same : ∀ r ∈ u.queue, expires ((u.queue.filter timedOut).map (·.sequence)) r =
      expires (u.queue.map (·.sequence)) r := by
    intro r hr
    cases late : timedOut r with
    | false => simp [expires, late]
    | true =>
      have queued : r.sequence ∈ u.queue.map (·.sequence) := List.mem_map_of_mem hr
      have filtered : r.sequence ∈ (u.queue.filter timedOut).map (·.sequence) :=
        List.mem_map_of_mem (List.mem_filter.mpr ⟨hr, late⟩)
      simp only [expires, queued, filtered]
  have records : u.queue.map (fun r => if expires ((u.queue.filter timedOut).map (·.sequence)) r then timeOutRecord r else r) =
      u.queue.map fun r => if expires (u.queue.map (·.sequence)) r then timeOutRecord r else r :=
    List.map_congr_left fun r hr => by rw [same r hr]
  have stalling : stallsAny ((u.queue.filter timedOut).map (·.sequence)) u = stallsAny (u.queue.map (·.sequence)) u := by
    unfold stallsAny
    rw [Bool.eq_iff_iff, List.any_eq_true, List.any_eq_true]
    exact exists_congr fun r => and_congr_right fun hr => by rw [same r hr]
  rw [timeOutAll, timeOutAll, records, stalling]

/-- R174: once the timeouts of a boundary are taken, no record has timed out. -/
theorem timeOutAll_punctual (u : EventUnit) : (u.timeOutAll (u.queue.map (·.sequence))).Punctual := by
  intro x hx
  obtain ⟨r, hr, rfl⟩ := List.mem_map.mp hx
  split
  · exact timedOut_timeOutRecord r
  · next h =>
    rw [expires, decide_eq_true (List.mem_map_of_mem hr), Bool.true_and] at h
    simpa using h

/-! ### What keeps the reports punctual -/

namespace Punctual

theorem latch (h : u.Punctual) (n : Fin 17) : (EventUnit.latch n u).Punctual := h

/-- R171: a new record is UNSENT. -/
theorem enter (h : u.Punctual) (stamp : Word16) (kind : EventKind) (subject : SlotIdx) (detail : Word16) :
    (u.enter stamp kind subject detail).Punctual := by
  intro r hr
  rcases List.mem_cons.mp ((insertRecord_perm _ _).mem_iff.mp hr) with rfl | old
  · exact timedOut_of_unsent rfl
  · exact h r old

theorem raise (h : u.Punctual) (stamp : Word16) (kind : EventKind) (subject : SlotIdx) (detail : Word16) :
    (u.raise stamp kind subject detail).Punctual := by
  rcases u.raise_cases stamp kind subject detail with ⟨-, e⟩ | ⟨-, -, e⟩ | ⟨-, -, e⟩ <;> rw [e]
  · exact h
  · exact h.enter _ _ _ _
  · exact h

/-- A change of the records that brings none to its timeout. -/
theorem map (h : u.Punctual) {f : EventRecord → EventRecord} (keeps : ∀ r, timedOut r = false → timedOut (f r) = false) :
    ({ u with queue := u.queue.map f } : EventUnit).Punctual := by
  intro x hx
  obtain ⟨r, hr, rfl⟩ := List.mem_map.mp hx
  exact keeps r (h r hr)

theorem updateRecord (h : u.Punctual) (n : Word16) {f : EventRecord → EventRecord}
    (keeps : ∀ r, timedOut r = false → timedOut (f r) = false) : (u.updateRecord n f).Punctual := by
  refine h.map fun r hr => ?_
  split
  · exact keeps r hr
  · exact hr

theorem timeOut (h : u.Punctual) (n : Word16) : (u.timeOut n).Punctual := by
  rw [timeOut_eq]
  refine h.map fun r hr => ?_
  split
  · exact timedOut_timeOutRecord r
  · exact hr

/-- R174: a report fully sent is OUTSTANDING at age 0. -/
theorem reportSent (h : u.Punctual) (n : Word16) : (u.reportSent n).Punctual := by
  refine h.updateRecord n fun r hr => ?_
  split
  · simp [timedOut, Config.reportTimeout]
  · exact hr

/-- R176: an acknowledgement removes a record, and a loss counted enters one. -/
theorem acknowledge (h : u.Punctual) (stamp n : Word16) : (u.acknowledge stamp n).1.Punctual := by
  unfold EventUnit.acknowledge
  split
  · have removed : ({ u with queue := u.queue.eraseP (acknowledges n) } : EventUnit).Punctual :=
      fun r hr => h r (List.mem_of_mem_eraseP hr)
    unfold reportLoss
    split
    · exact removed
    · exact removed.enter _ _ _ _
  · exact h

theorem acknowledgeAll (h : u.Punctual) (stamp : Word16) (numbers : List Word16) :
    (u.acknowledgeAll stamp numbers).1.Punctual := by
  induction numbers generalizing u with
  | nil => exact h
  | cons n numbers ih => exact ih (h.acknowledge stamp n)

/-- R176: the records the stall held become UNSENT. -/
theorem resume (h : u.Punctual) : u.resume.Punctual := by
  refine h.map fun r hr => ?_
  rw [timedOut_eq_false_iff] at hr ⊢
  cases held : r.stalled <;> simp_all

/-- R178: and all do at a move of the control port. -/
theorem moveControl (h : u.Punctual) : u.moveControl.Punctual := h.map fun _ _ => timedOut_of_unsent rfl

end Punctual

end EventUnit

/-- R174: timeouts one after another, in the state. -/
theorem State.foldl_timeOut (l : List EventRecord) (s : State) :
    l.foldl (fun s r => s.updateEvents (EventUnit.timeOut r.sequence)) s =
      s.updateEvents (EventUnit.timeOutAll (l.map (·.sequence))) := by
  have folds : l.foldl (fun s r => s.updateEvents (EventUnit.timeOut r.sequence)) s =
      s.updateEvents fun u => l.foldl (fun u r => u.timeOut r.sequence) u := by
    induction l generalizing s with
    | nil => rfl
    | cons r l ih => exact ih _
  rw [folds, updateEvents, updateEvents, EventUnit.foldl_timeOut]

/-- R174: the timeouts of a boundary, of the records that have timed out or of all. -/
theorem State.timeOutReports_eq (s : State) :
    s.timeOutReports = s.updateEvents (EventUnit.timeOutAll (s.events.queue.map (·.sequence))) := by
  rw [timeOutReports, foldl_timeOut, updateEvents, updateEvents, EventUnit.timeOutAll_filter]

end Sys2Proof.Machine
end

section
/-! PROOFS. The works of a boundary (log entry 3), one by one: what of it has been taken stays taken. -/

namespace Sys2Proof.Machine

/-- R164: no soft reset is awaited at the boundary in progress, and no message that completes at it brings one. -/
def NoSoftReset (s : State) : Prop :=
  s.channel.processor ≠ .resetDue ∧
    ∀ (e : PortIdx) (x : Sending), s.egress[e].fullySent = some x → x.origin ≠ .softReset

/-- R57: a pick, once taken, is not due. -/
theorem ElasticStore.pick_pickDue (locked : Bool) (st : ElasticStore) : (st.pick locked).pickDue = false := by
  unfold pick
  split
  · split <;> rfl
  · rfl

/-- What of the boundary in progress has been taken in `s` is not due again in `t`. -/
structure StaysDone (s t : State) : Prop where
  boundary : t.timing.atBoundary = s.timing.atBoundary
  fix : s.timing.fixDue = false → t.timing.fixDue = false
  window : ∀ p : PortIdx, s.ports[p].windowDue = false → t.ports[p].windowDue = false
  silence : ∀ p : PortIdx, s.ports[p].silenceDue = false → t.ports[p].silenceDue = false
  pick : ∀ p : PortIdx, s.ports[p].store.pickDue = false → t.ports[p].store.pickDue = false
  commit : NoCommitDue s → NoCommitDue t
  look : s.processorReady = false → t.processorReady = false
  reset : NoSoftReset s → NoSoftReset t
  reports : s.events.Punctual → t.events.Punctual

namespace StaysDone

variable {s t u : State} {p e : PortIdx}

theorem refl (s : State) : StaysDone s s :=
  ⟨rfl, id, fun _ => id, fun _ => id, fun _ => id, id, id, id, id⟩

theorem trans (h : StaysDone s t) (k : StaysDone t u) : StaysDone s u where
  boundary := k.boundary.trans h.boundary
  fix due := k.fix (h.fix due)
  window p due := k.window p (h.window p due)
  silence p due := k.silence p (h.silence p due)
  pick p due := k.pick p (h.pick p due)
  commit due := k.commit (h.commit due)
  look due := k.look (h.look due)
  reset due := k.reset (h.reset due)
  reports due := k.reports (h.reports due)

/-! ### Updates of one block -/

/-- Operations of the route table, the slots, the profiles and the monitors, with what they do in the event unit. -/
theorem of_eq (timing : t.timing = s.timing) (ports : t.ports = s.ports) (commit : t.pendingCommit = s.pendingCommit)
    (channel : t.channel = s.channel) (egress : t.egress = s.egress)
    (reports : s.events.Punctual → t.events.Punctual) : StaysDone s t where
  boundary := by rw [timing]
  fix := by rw [timing]; exact id
  window p := by rw [ports]; exact id
  silence p := by rw [ports]; exact id
  pick p := by rw [ports]; exact id
  commit := by unfold NoCommitDue; rw [timing, commit]; exact id
  look := by unfold State.processorReady; rw [timing, channel]; exact id
  reset := by unfold NoSoftReset; rw [channel, egress]; exact id
  reports := reports

theorem updateEvents (s : State) {f : EventUnit → EventUnit} (reports : s.events.Punctual → (f s.events).Punctual) :
    StaysDone s (s.updateEvents f) := of_eq rfl rfl rfl rfl rfl reports

theorem raise (s : State) (kind : EventKind) (subject : SlotIdx) (detail : Word16) :
    StaysDone s (s.raise kind subject detail) := updateEvents s fun h => h.raise _ _ _ _

theorem latch (s : State) (n : Fin 17) : StaysDone s (s.latch n) := updateEvents s fun h => h.latch n

theorem updateSlot (s : State) (i : SlotIdx) (f : Slot → Slot) : StaysDone s (s.updateSlot i f) :=
  of_eq rfl rfl rfl rfl rfl id

/-- A port none of whose three works becomes due. -/
theorem updatePort (s : State) (p : PortIdx) {f : Port → Port}
    (window : s.ports[p].windowDue = false → (f s.ports[p]).windowDue = false)
    (silence : s.ports[p].silenceDue = false → (f s.ports[p]).silenceDue = false)
    (pick : s.ports[p].store.pickDue = false → (f s.ports[p]).store.pickDue = false) : StaysDone s (s.updatePort p f) := by
  have port : ∀ q : PortIdx, (s.updatePort p f).ports[q] = if p = q then f s.ports[q] else s.ports[q] := fun q => by
    split
    · next h => subst h; exact s.updatePort_port p f
    · next h => exact updateAt_get_ne _ _ h
  refine ⟨rfl, id, fun q => ?_, fun q => ?_, fun q => ?_, id, id, id, id⟩ <;> rw [port] <;> split
  · next h => subst h; exact window
  · exact id
  · next h => subst h; exact silence
  · exact id
  · next h => subst h; exact pick
  · exact id

/-- An egress port at which no message becomes fully sent. -/
theorem updateEgress (s : State) (e : PortIdx) {f : Egress → Egress}
    (sent : ∀ x, (f s.egress[e]).fullySent = some x → s.egress[e].fullySent = some x) :
    StaysDone s (s.updateEgress e f) := by
  refine ⟨rfl, id, fun _ => id, fun _ => id, fun _ => id, id, id, fun ⟨awaited, completes⟩ => ⟨awaited, fun d x => ?_⟩, id⟩
  by_cases h : e = d
  · subst h
    rw [State.updateEgress_egress_self]
    exact fun hx => completes e x (sent x hx)
  · rw [State.updateEgress_egress, updateAt_get_ne _ _ h]
    exact completes d x

/-! ### The ingress ports and the timing unit -/

theorem failQualification (s : State) (p : PortIdx) (detail : Word16) : StaysDone s (s.failQualification p detail) := by
  have flags : ∀ q : Port, q.failQualification.windowDue = q.windowDue ∧ q.failQualification.silenceDue = q.silenceDue ∧
      q.failQualification.store = q.store := fun q => by
    unfold Port.failQualification
    split <;> exact ⟨rfl, rfl, rfl⟩
  obtain ⟨window, silence, store⟩ := flags s.ports[p]
  have failed : StaysDone s (s.updatePort p Port.failQualification) :=
    updatePort s p (by rw [window]; exact id) (by rw [silence]; exact id) (by rw [store]; exact id)
  unfold State.failQualification
  dsimp only
  split
  · exact ((failed.trans (raise _ _ _ _)).trans (latch _ _)).trans (latch _ _)
  · exact (failed.trans (raise _ _ _ _)).trans (latch _ _)

theorem completeWindow (s : State) (p : PortIdx) : StaysDone s (s.completeWindow p) := by
  unfold State.completeWindow
  split
  · exact updatePort s p id id id
  · exact failQualification s p _

theorem takeWindow (s : State) (p : PortIdx) : StaysDone s (s.takeWindow p) := by
  have counted : StaysDone s (s.updatePort p Port.countDown) := updatePort s p (fun _ => rfl) id id
  unfold State.takeWindow
  dsimp only
  split
  · exact counted.trans (completeWindow _ p)
  · exact counted

theorem ensureWindow (s : State) (p : PortIdx) : StaysDone s (s.ensureWindow p) := by
  unfold State.ensureWindow
  split
  · exact takeWindow s p
  · exact refl s

theorem rejectFragment (s : State) (p : PortIdx) (detail : Word16) : StaysDone s (s.rejectFragment p detail) :=
  ((updatePort s p id id id).trans (updatePort _ p id id id)).trans (raise _ _ _ _)

theorem takeSilence (s : State) (p : PortIdx) : StaysDone s (s.takeSilence p) := by
  have counted : StaysDone s (s.updatePort p Port.countSilence) := updatePort s p id (fun _ => rfl) id
  unfold State.takeSilence
  dsimp only
  split
  · exact counted.trans (rejectFragment _ p _)
  · exact counted

theorem ensureSilence (s : State) (p : PortIdx) : StaysDone s (s.ensureSilence p) := by
  unfold State.ensureSilence
  split
  · exact takeSilence s p
  · exact refl s

theorem ensureTiming (s : State) : StaysDone s s.ensureTiming := by
  have ⟨boundary, period⟩ := s.ensureTiming_timing
  have due := s.ensureTiming_fixDue
  have reports : s.events.Punctual → s.ensureTiming.events.Punctual := fun h => by
    unfold State.ensureTiming
    split
    · rw [State.fixTiming_eq]
      dsimp only
      split
      · exact h
      · exact h.raise _ _ _ _
    · exact h
  obtain ⟨timing, events, hw⟩ := s.ensureTiming_writes
  rw [hw] at boundary period due reports ⊢
  refine ⟨boundary, fun _ => due, fun _ => id, fun _ => id, fun _ => id, fun h c hc => ?_, fun h => ?_, id, reports⟩
  · dsimp only at period
    rw [period]
    exact h c hc
  · unfold State.processorReady at h ⊢
    dsimp only at boundary ⊢
    rw [boundary]
    exact h

theorem reportSlip (s : State) (p : PortIdx) (detail : Word16) : StaysDone s (s.reportSlip p detail) := by
  unfold State.reportSlip
  split
  · exact (latch s _).trans (raise _ _ _ _)
  · exact latch s _

theorem countRepeat (s : State) (p : PortIdx) :
    StaysDone s ((s.countPort p fun c => { c with slipRepeats := saturatingInc c.slipRepeats }).reportSlip p detailRepeat) :=
  (updatePort s p id id id).trans (reportSlip _ p _)

theorem pickFrame (s : State) (p : PortIdx) : StaysDone s (s.pickFrame p) := by
  have picked : StaysDone s (s.updatePort p fun x => { x with store := x.store.pick x.isLocked }) :=
    updatePort s p id id fun _ => ElasticStore.pick_pickDue _ _
  unfold State.pickFrame
  dsimp only
  split
  · exact picked.trans (countRepeat _ p)
  · exact picked

theorem ensurePick (s : State) (p : PortIdx) : StaysDone s (s.ensurePick p) := by
  unfold State.ensurePick
  split
  · exact pickFrame s p
  · exact refl s

theorem ensurePicks (s : State) (l : MixList) : StaysDone s (s.ensurePicks l) := by
  unfold State.ensurePicks
  refine forEach_keeps (P := StaysDone s) (fun p t h => ?_) (refl s)
  split
  · exact h.trans (ensurePick t p)
  · exact h

/-! ### The commit unit and the slots -/

theorem takeCommit (s : State) (c : PendingCommit) : StaysDone s (s.takeCommit c) := by
  obtain ⟨slots, routes, hw, -⟩ := s.takeCommit_writes c
  rw [hw]
  exact ⟨rfl, id, fun _ => id, fun _ => id, fun _ => id, fun _ _ none => absurd none (Option.not_mem_none _), id, id,
    fun h => h.raise _ _ _ _⟩

theorem takeCommitIfDue (s : State) : StaysDone s s.takeCommitIfDue := by
  unfold State.takeCommitIfDue
  split
  · exact takeCommit s _
  · exact refl s

theorem updateDue (s : State) (i : SlotIdx) (f : SlotDue → SlotDue) : StaysDone s (s.updateDue i f) := updateSlot s i _

theorem ensureCheck (s : State) (i : SlotIdx) : StaysDone s (s.ensureCheck i) := by
  have checked : StaysDone s (s.checkSettle i) := by
    unfold State.checkSettle
    dsimp only
    split
    · exact (updateSlot s i _).trans (raise _ _ _ _)
    · exact refl s
  unfold State.ensureCheck
  split
  · exact checked.trans (updateDue _ i _)
  · exact refl s

theorem moveSlot (s : State) (i : SlotIdx) (select : ListSelect) (kind : EventKind) :
    StaysDone s (s.moveSlot i select kind) :=
  ((updateSlot s i _).trans (updateSlot _ i _)).trans (raise _ _ _ _)

theorem doubleLose (s : State) (i : SlotIdx) : StaysDone s (s.doubleLose i) := by
  have latched := (updateSlot s i fun x =>
    { x with protection := { x.protection with wtrTimer := none, doubleLoss := true } }).trans (latch _ alarmDoubleLoss)
  unfold State.doubleLose
  dsimp only
  split
  · exact latched
  · exact latched.trans (raise _ _ _ _)

theorem restoreSlot (s : State) (i : SlotIdx) : StaysDone s (s.restoreSlot i) := by
  unfold State.restoreSlot
  split
  · split
    · exact moveSlot s i _ _
    · exact updateSlot s i _
  · exact updateSlot s i _

/-- Table 27. -/
theorem evaluateSlot (s : State) (i : SlotIdx) : StaysDone s (s.evaluateSlot i) := by
  unfold State.evaluateSlot
  dsimp only
  split
  · split <;> exact updateSlot s i _
  · split
    · exact updateSlot s i _
    · split
      · exact moveSlot s i _ _
      · exact doubleLose s i
  · split
    · exact restoreSlot s i
    · split
      · exact moveSlot s i _ _
      · exact doubleLose s i
  · exact refl s

theorem ensureProtect (s : State) (i : SlotIdx) : StaysDone s (s.ensureProtect i) := by
  have committed : StaysDone s (s.commitFor i) := by
    unfold State.commitFor
    split
    · exact takeCommitIfDue s
    · exact refl s
  have noticed : ∀ t : State, StaysDone t (t.ensureNotice i) := fun t => by
    unfold State.ensureNotice
    split
    · rw [t.takeNotice_writes i]
      exact of_eq rfl rfl rfl rfl rfl id
    · exact refl t
  have evaluated : ∀ t : State, StaysDone t (t.ensureEvaluation i) := fun t => by
    unfold State.ensureEvaluation
    split
    · exact (evaluateSlot t i).trans (updateDue _ i _)
    · exact refl t
  exact (committed.trans (noticed _)).trans (evaluated _)

theorem markEntered (s : State) (i : Fin 8) (enters : Bool) : StaysDone s (s.markEntered i enters) :=
  of_eq rfl rfl rfl rfl rfl id

theorem takeRequest (i : SlotIdx) (s : State) (r : Request) : StaysDone s (State.takeRequest i s r) := by
  have taken : StaysDone s ((s.updateContext i fun x => x.request r.target r.profile s.latching[r.profile]).markEntered
      r.profile (s.slots[i].context.requestEnters r.target)) := (updateSlot s i _).trans (markEntered _ _ _)
  unfold State.takeRequest
  dsimp only
  split
  · exact taken.trans (raise _ _ _ _)
  · exact taken

theorem makeContext (s : State) (i : SlotIdx) : StaysDone s (s.makeContext i) := by
  have requests : ∀ t : State, StaysDone t (t.takeRequests i) := fun t =>
    (foldl_keeps (P := StaysDone t) (fun u r h => h.trans (takeRequest i u r)) (refl t)).trans (updateSlot _ i _)
  have steps : ∀ t : State, StaysDone t (t.stepSlot i) := fun t => by
    have stepped : StaysDone t ((t.updateContext i fun x => x.step t.latching[t.slots[i].context.governing]).markEntered
        t.slots[i].context.governing t.slots[i].context.stepEnters) := (updateSlot t i _).trans (markEntered _ _ _)
    unfold State.stepSlot
    dsimp only
    split
    · exact stepped.trans (raise _ _ _ _)
    · exact stepped
  exact ((updateSlot s i _).trans (requests _)).trans (steps _)

theorem ensureStep (s : State) (i : SlotIdx) : StaysDone s (s.ensureStep i) := by
  unfold State.ensureStep
  split
  · exact (((ensureCheck s i).trans (ensureProtect _ i)).trans (makeContext _ i)).trans (updateDue _ i _)
  · exact refl s

theorem mixSlot (s : State) (i : SlotIdx) : StaysDone s (s.mixSlot i) := by
  unfold State.mixSlot
  dsimp only
  split
  · split
    · exact (updateSlot s i _).trans (latch _ _)
    · exact ((updateSlot s i _).trans (latch _ _)).trans (raise _ _ _ _)
  · exact updateSlot s i _

theorem ensureMix (s : State) (i : SlotIdx) : StaysDone s (s.ensureMix i) := by
  unfold State.ensureMix State.mixPicked
  split
  · exact (((ensureStep s i).trans (ensurePicks _ _)).trans (mixSlot _ i)).trans (updateDue _ i _)
  · exact refl s

theorem finishSlot (s : State) (i : SlotIdx) : StaysDone s (s.finishSlot i) :=
  (((ensureCheck s i).trans (ensureProtect _ i)).trans (ensureStep _ i)).trans (ensureMix _ i)

theorem evaluateMonitor (s : State) (m : Fin 4) : StaysDone s (s.evaluateMonitor m) := by
  have evaluated : ∀ f : Monitor → Monitor, StaysDone s (s.updateMonitor m f) := fun f => of_eq rfl rfl rfl rfl rfl id
  unfold State.evaluateMonitor
  dsimp only
  split
  · exact (evaluated _).trans (raise _ _ _ _)
  · exact evaluated _

/-! ### The egress ports -/

/-- R157, R164: where no soft reset is to come, a message that completes brings none. -/
theorem completeSending (s : State) (e : PortIdx) : StaysDone s (s.completeSending e) := by
  cases sent : s.egress[e].fullySent with
  | none => rw [State.completeSending_of_unsent sent]; exact refl s
  | some x =>
    have idle : StaysDone s (s.updateEgress e fun y => { y with transmitter := none }) :=
      updateEgress s e fun _ again => absurd (again.symm.trans (Egress.fullySent_of_idle rfl)) (Option.some_ne_none _)
    rw [State.completeSending_of_sent sent]
    cases origin : x.origin with
    | response => exact idle
    | report n => exact idle.trans (updateEvents _ fun h => h.reportSent n)
    | softReset =>
      exact ⟨rfl, id, fun _ => id, fun _ => id, fun _ => id, id,
        fun _ => by simp [State.messageEffect, State.updateChannel, State.processorReady],
        fun h => absurd origin (h.2 e x sent), id⟩

/-- R157: a message whose fragment is supplied for the frame is not fully sent at this boundary. -/
theorem serve (s : State) (e : PortIdx) (f : Egress → Egress) :
    StaysDone s (s.updateEgress e fun y => (f y).serve) := by
  refine updateEgress s e fun x again => ?_
  obtain ⟨-, due, -⟩ := Egress.fullySent_eq_some.mp again
  exact Bool.noConfusion due

/-- R157, R173: so is what an idle transmitter has picked just before. -/
theorem pickMessage_serve (s : State) (e : PortIdx) : StaysDone s ((s.pickMessage e).updateEgress e Egress.serve) := by
  unfold State.pickMessage State.pickReport
  split
  · exact serve s e id
  · split
    · split
      · split
        · next r _ _ =>
          have picked := (serve s e fun y =>
            { y with transmitter := some { bytes := reportBytes r, next := 0, origin := .report r.sequence } }).trans
            (updateEvents _ fun h => h.updateRecord r.sequence (f := fun x => { x with inTransmission := true }) fun _ => id)
          rw [← State.updateEgress_updateEgress] at picked
          exact picked
        · exact serve s e id
      · exact serve s e id
    · rw [State.updateEgress_updateEgress]
      exact serve s e Egress.pickResponse

theorem ensureTransmitter (s : State) (e : PortIdx) : StaysDone s (s.ensureTransmitter e) := by
  unfold State.ensureTransmitter State.takeTransmitter
  split
  · split
    · exact (completeSending s e).trans (pickMessage_serve _ e)
    · refine updateEgress s e fun x again => ?_
      obtain ⟨-, due, -⟩ := Egress.fullySent_eq_some.mp again
      exact Bool.noConfusion due
  · exact refl s

theorem sendFrame (s : State) (e : PortIdx) : StaysDone s (s.sendFrame e) := updateEgress s e fun _ => id

theorem ensureMonitor (s : State) (m : Fin 4) : StaysDone s (s.ensureMonitor m) := by
  unfold State.ensureMonitor
  split
  · exact (ensureMix s _).trans (evaluateMonitor _ m)
  · exact refl s

theorem ensureFrame (s : State) (e : PortIdx) : StaysDone s (s.ensureFrame e) := by
  have mixed : StaysDone s (s.ensureMixes e) :=
    forEach_keeps (P := StaysDone s) (fun k t h => h.trans (ensureMix t (slotIndex e k))) (refl s)
  unfold State.ensureFrame
  split
  · exact (mixed.trans (ensureTransmitter _ e)).trans (sendFrame _ e)
  · exact refl s

/-- R174: the timeouts of a boundary bring every report to time. -/
theorem timeOutReports (s : State) : StaysDone s s.timeOutReports := by
  rw [State.timeOutReports_eq]
  exact updateEvents s fun _ => s.events.timeOutAll_punctual

/-! ### The processor's own updates -/

theorem updateChannel (s : State) {f : Channel → Channel}
    (look : (f s.channel).turn = true → (f s.channel).processor = .executing →
      s.channel.turn = true ∧ s.channel.processor = .executing)
    (awaited : s.channel.processor ≠ .resetDue → (f s.channel).processor ≠ .resetDue) :
    StaysDone s (s.updateChannel f) := by
  refine ⟨rfl, id, fun _ => id, fun _ => id, fun _ => id, id, fun h => ?_, fun h => ⟨awaited h.1, h.2⟩, id⟩
  by_contra ready
  simp only [State.processorReady, State.updateChannel, Bool.not_eq_false, Bool.and_eq_true] at ready
  obtain ⟨⟨boundary, turn'⟩, executing'⟩ := ready
  obtain ⟨turn, executing⟩ := look turn' (of_decide_eq_true executing')
  have stays : s.processorReady = true := by simp [State.processorReady, boundary, turn, executing]
  exact absurd (stays.symm.trans h) (by decide)

theorem taken (s : State) (older newer : List Message) : StaysDone s (s.taken older newer) :=
  updateChannel s (f := fun c => { c with queue := older ++ newer, turn := false }) (fun again => Bool.noConfusion again) id

theorem endTurn (s : State) : StaysDone s s.endTurn := updateChannel s (fun again => Bool.noConfusion again) id

/-- R156: a response that waits is not yet a message being sent. -/
theorem respond (s : State) (m : Message) (status : Status) (results : List Byte) (origin : MessageOrigin) :
    StaysDone s (s.respond m status results origin) := by
  refine updateEgress s m.source fun x => ?_
  unfold Egress.place
  split <;> exact id

end StaysDone

end Sys2Proof.Machine
end

section
/-! PROOFS. What the owning rule of a command can do (Table 7), and the processor's look (R154) in its boundary. -/

namespace Sys2Proof.Machine

/-- All that a command's owning rule can make of the state in which the processor has taken it. -/
inductive Commanded (s : State) : State → Prop
  | nothing : Commanded s s
  | halted : Commanded s (s.updateChannel fun c => { c with processor := .halted })
  | control (p : PortIdx) : Commanded s (moveControl s p)
  | egressOn (e : PortIdx) : Commanded s (enableEgress s e)
  | egressOff (e : PortIdx) : Commanded s (disableEgress s e)
  | port (p : PortIdx) (enable : Bool) (x : PortSettings) : Commanded s (configurePort s p enable x)
  | restarted (p : PortIdx) : Commanded s (restartPort s p)
  | counters (p : PortIdx) (clear : Bool) : Commanded s (clearCounters s p clear)
  | fixed : Commanded s s.ensureTiming
  | source (x : Option PortIdx) : Commanded s (s.ensureTiming.updateTiming fun t => { t with source := x })
  | staged (i : SlotIdx) (r : RouteRecord) : Commanded s (s.stageEntry i r)
  | copied (mask : BitVec 4) : Commanded s (s.copyActive mask)
  | committed (c : PendingCommit) (later : c.effective ≠ s.timing.periodCounter) : Commanded s (s.setPendingCommit (some c))
  | cancelled : Commanded s (s.setPendingCommit none)
  | profile (i : Fin 8) (x : Profile) : Commanded s (writeProfile s i x)
  | clip (i : SlotIdx) (clear : Bool) : Commanded s (clearClipCounter s i clear)
  | meters (e : PortIdx) (clear : Bool) : Commanded s (clearMeters s e clear)
  | noticed (i : SlotIdx) : Commanded s (noticeFirst s i)
  | switched (i : SlotIdx) (select : ListSelect) : Commanded s (switchSlot (noticeFirst s i) i select)
  | monitor (n : Fin 4) (f : Monitor → Monitor) : Commanded s (s.updateMonitor n f)
  | kind (k : Fin 20) (x : KindConfig) :
    Commanded s (s.updateEvents fun u => { u with config := updateAt u.config k fun _ => x })
  | acknowledged (numbers : List Word16) :
    Commanded s (s.updateEvents fun _ => (s.events.acknowledgeAll s.timing.periodCounter numbers).1.resume)
  | cleared (mask : BitVec 17) : Commanded s (clearAlarms s mask)
  | pins (mask : BitVec 17) : Commanded s (s.updateEvents fun u => { u with pinMask := mask })

/-! ### The rules of the commands -/

section
variable (m : Message) (s : State)

theorem identifyRule_commanded : Commanded s (identifyRule m s).state := by
  unfold identifyRule
  split <;> exact .nothing

theorem softResetRule_commanded : Commanded s (softResetRule m s).state := by
  unfold softResetRule
  split
  · exact .halted
  · exact .nothing

theorem setControlRule_commanded : Commanded s (setControlRule m s).state := by
  unfold setControlRule
  split
  · split
    · exact .control _
    · exact .nothing
  · exact .nothing

theorem portConfigRule_commanded : Commanded s (portConfigRule m s).state := by
  unfold portConfigRule
  split
  · split
    · exact .nothing
    · exact .port _ _ _
  · exact .nothing

theorem portRestartRule_commanded : Commanded s (portRestartRule m s).state := by
  unfold portRestartRule
  split
  · split
    · exact .restarted _
    · exact .nothing
  · exact .nothing

theorem readPortRule_commanded : Commanded s (readPortRule m s).state := by
  unfold readPortRule
  split
  · split
    · exact .counters _ _
    · exact .nothing
  · exact .nothing

theorem timingConfigRule_commanded : Commanded s (timingConfigRule m s).state := by
  unfold timingConfigRule
  split
  · split
    · exact .source _
    · exact .nothing
  · exact .nothing

theorem readTimingRule_commanded : Commanded s (readTimingRule m s).state := by
  unfold readTimingRule
  split
  · exact .fixed
  · exact .nothing

theorem stageEntryRule_commanded : Commanded s (stageEntryRule m s).state := by
  unfold stageEntryRule
  split
  · split
    · exact .nothing
    · exact .staged _ _
  · exact .nothing

theorem copyActiveRule_commanded : Commanded s (copyActiveRule m s).state := by
  unfold copyActiveRule
  split
  · split
    · exact .nothing
    · split
      · exact .copied _
      · exact .nothing
  · exact .nothing

theorem readEntryRule_commanded : Commanded s (readEntryRule m s).state := by
  unfold readEntryRule
  split
  · split <;> exact .nothing
  · exact .nothing

/-- R82, R83: no commit is accepted for the period in progress. -/
theorem effectivePeriod_ne {scheduled : Bool} {target counter period : Word16}
    (h : effectivePeriod scheduled target counter = some period) : period ≠ counter := by
  rintro rfl
  unfold effectivePeriod distanceTo at h
  split at h
  · split at h
    · next far =>
      simp only [Bool.and_eq_true, decide_eq_true_eq] at far
      obtain rfl := Option.some_inj.mp h
      simp at far
    · exact absurd h (by simp)
  · have next := Option.some_inj.mp h
    bv_omega

theorem commitRule_commanded : Commanded s (commitRule m s).state := by
  unfold commitRule
  split
  · split
    · exact .nothing
    · split
      · exact .nothing
      · split
        · next h => exact .committed _ (effectivePeriod_ne h)
        · exact .nothing
  · exact .nothing

theorem cancelCommitRule_commanded : Commanded s (cancelCommitRule m s).state := by
  unfold cancelCommitRule
  split
  · exact .nothing
  · split
    · exact .cancelled
    · exact .nothing

theorem readCommitRule_commanded : Commanded s (readCommitRule m s).state := by
  unfold readCommitRule
  split <;> exact .nothing

theorem writeProfileRule_commanded : Commanded s (writeProfileRule m s).state := by
  unfold writeProfileRule
  split
  · split
    · exact .profile _ _
    · exact .nothing
  · exact .nothing

theorem readProfileRule_commanded : Commanded s (readProfileRule m s).state := by
  unfold readProfileRule
  split
  · split <;> exact .nothing
  · exact .nothing

theorem readSlotRule_commanded : Commanded s (readSlotRule m s).state := by
  unfold readSlotRule
  split
  · split
    · exact .clip _ _
    · exact .nothing
  · exact .nothing

theorem switchRule_commanded : Commanded s (switchRule m s).state := by
  unfold switchRule executeSwitch
  split
  · split
    · exact .nothing
    · split
      · exact .switched _ _
      · exact .noticed _
  · exact .nothing

theorem egressConfigRule_commanded : Commanded s (egressConfigRule m s).state := by
  unfold egressConfigRule
  split
  · split
    · exact .nothing
    · split
      · exact .egressOn _
      · exact .egressOff _
  · exact .nothing

theorem readMetersRule_commanded : Commanded s (readMetersRule m s).state := by
  unfold readMetersRule
  split
  · split
    · exact .meters _ _
    · exact .nothing
  · exact .nothing

theorem monitorConfigRule_commanded : Commanded s (monitorConfigRule m s).state := by
  unfold monitorConfigRule
  split
  · split
    · exact .monitor _ _
    · exact .nothing
  · exact .nothing

theorem eventConfigRule_commanded : Commanded s (eventConfigRule m s).state := by
  unfold eventConfigRule
  split
  · split
    · exact .nothing
    · exact .kind _ _
  · exact .nothing

theorem eventAckRule_commanded : Commanded s (eventAckRule m s).state := by
  unfold eventAckRule
  split
  · exact .acknowledged _
  · exact .nothing

theorem readAlarmsRule_commanded : Commanded s (readAlarmsRule m s).state := by
  unfold readAlarmsRule
  split <;> exact .nothing

theorem clearAlarmsRule_commanded : Commanded s (clearAlarmsRule m s).state := by
  unfold clearAlarmsRule
  split
  · split
    · exact .cleared _
    · exact .nothing
  · exact .nothing

theorem alarmConfigRule_commanded : Commanded s (alarmConfigRule m s).state := by
  unfold alarmConfigRule
  split
  · split
    · exact .pins _
    · exact .nothing
  · exact .nothing

end

/-! ### The look -/

variable {s : State} {older newer : List Message} {m : Message}

/-- R155: a command the processor takes, by what its owning rule can do. -/
theorem executeCommand_commanded (turn : Turn s older m newer) {code : Byte} (hc : messageCode m = code)
    {authority : Authority} {rule : State → CommandResult} (rules : ∀ s, Commanded s (rule s).state) :
    ∃ r : CommandResult, executeCommand code authority m rule s = r.deliver m ∧ Commanded (s.taken older newer) r.state := by
  refine ⟨_, executeCommand_of_turn turn hc authority rule, ?_⟩
  unfold judge
  split
  · exact .nothing
  · exact rules _

/-- Table 7: whatever command the processor takes. -/
theorem runMessage_commanded (turn : Turn s older m newer) :
    ∃ r : CommandResult, runMessage m s = r.deliver m ∧ Commanded (s.taken older newer) r.state := by
  unfold runMessage
  split
  · next hc => exact executeCommand_commanded turn hc (identifyRule_commanded m)
  · next hc => exact executeCommand_commanded turn hc (softResetRule_commanded m)
  · next hc => exact executeCommand_commanded turn hc (setControlRule_commanded m)
  · next hc => exact executeCommand_commanded turn hc (portConfigRule_commanded m)
  · next hc => exact executeCommand_commanded turn hc (portRestartRule_commanded m)
  · next hc => exact executeCommand_commanded turn hc (readPortRule_commanded m)
  · next hc => exact executeCommand_commanded turn hc (timingConfigRule_commanded m)
  · next hc => exact executeCommand_commanded turn hc (readTimingRule_commanded m)
  · next hc => exact executeCommand_commanded turn hc (stageEntryRule_commanded m)
  · next hc => exact executeCommand_commanded turn hc (copyActiveRule_commanded m)
  · next hc => exact executeCommand_commanded turn hc (readEntryRule_commanded m)
  · next hc => exact executeCommand_commanded turn hc (commitRule_commanded m)
  · next hc => exact executeCommand_commanded turn hc (cancelCommitRule_commanded m)
  · next hc => exact executeCommand_commanded turn hc (readCommitRule_commanded m)
  · next hc => exact executeCommand_commanded turn hc (writeProfileRule_commanded m)
  · next hc => exact executeCommand_commanded turn hc (readProfileRule_commanded m)
  · next hc => exact executeCommand_commanded turn hc (readSlotRule_commanded m)
  · next hc => exact executeCommand_commanded turn hc (switchRule_commanded m)
  · next hc => exact executeCommand_commanded turn hc (egressConfigRule_commanded m)
  · next hc => exact executeCommand_commanded turn hc (readMetersRule_commanded m)
  · next hc => exact executeCommand_commanded turn hc (monitorConfigRule_commanded m)
  · next hc => exact executeCommand_commanded turn hc (eventConfigRule_commanded m)
  · next hc => exact executeCommand_commanded turn hc (eventAckRule_commanded m)
  · next hc => exact executeCommand_commanded turn hc (readAlarmsRule_commanded m)
  · next hc => exact executeCommand_commanded turn hc (clearAlarmsRule_commanded m)
  · next hc => exact executeCommand_commanded turn hc (alarmConfigRule_commanded m)
  · have unknown : commandCodes.contains (messageCode m) = false := by simp_all [commandCodes]
    unfold runUnrecognisedCode refuseCode
    rw [unknown, turn.taken_eq]
    exact ⟨_, rfl, .nothing⟩

/-- R154: all that the look can do. -/
theorem runProcessor_cases (s : State) :
    (s.processorReady = false ∧ s.runProcessor = s) ∨ s.runProcessor = s.endTurn ∨
      ∃ (older newer : List Message) (m : Message) (r : CommandResult), s.runProcessor = r.deliver m ∧
        Commanded (s.taken older newer) r.state := by
  unfold State.runProcessor
  split
  · next ready =>
    split
    · next m rest ha =>
      have chosen : s.choice = some m := by simp [State.choice, ready, ha]
      obtain ⟨older, newer, turn⟩ := choice_iff.mp chosen
      obtain ⟨r, run, commanded⟩ := runMessage_commanded turn
      exact .inr (.inr ⟨older, newer, m, r, run, commanded⟩)
    · exact .inr (.inl rfl)
  · next idle => exact .inl ⟨by simpa using idle, rfl⟩

/-! ### What the look leaves taken -/

namespace StaysDone

theorem disableEgress (s : State) (e : PortIdx) : StaysDone s (disableEgress s e) := by
  have abandoned : ∀ t : State, StaysDone t (t.abandonSending e) := fun t => by
    unfold State.abandonSending
    split
    · split
      · next n _ => exact updateEvents t fun h => h.updateRecord n (f := fun x => { x with inTransmission := false }) fun _ => id
      all_goals exact refl t
    · exact refl t
  unfold Machine.disableEgress
  split
  · refine ((completeSending s e).trans (abandoned _)).trans (updateEgress _ e fun _ again => ?_)
    exact absurd (again.symm.trans (Egress.fullySent_of_idle rfl)) (Option.some_ne_none _)
  · exact refl s

theorem enableEgress (s : State) (e : PortIdx) : StaysDone s (enableEgress s e) := by
  unfold Machine.enableEgress
  split
  · exact refl s
  · refine updateEgress s e fun _ again => ?_
    exact absurd (again.symm.trans (Egress.fullySent_of_idle rfl)) (Option.some_ne_none _)

theorem configurePort (s : State) (p : PortIdx) (enable : Bool) (x : PortSettings) :
    StaysDone s (configurePort s p enable x) := by
  unfold Machine.configurePort
  split
  · exact updatePort s p id id id
  · split
    · exact updatePort s p id id id
    · exact updatePort s p (fun taken => by rw [Port.reconfigure, taken]; rfl) id id

theorem setPendingCommit (s : State) {x : Option PendingCommit} (later : ∀ c ∈ x, c.effective ≠ s.timing.periodCounter) :
    StaysDone s (s.setPendingCommit x) :=
  ⟨rfl, id, fun _ => id, fun _ => id, fun _ => id, fun _ => later, id, id, id⟩

theorem noticeFirst (s : State) (i : SlotIdx) : StaysDone s (noticeFirst s i) := by
  unfold Machine.noticeFirst
  split
  · exact ensureProtect s i
  · exact refl s

theorem of_commanded {s t : State} (h : Commanded s t) : StaysDone s t := by
  cases h with
  | nothing => exact refl s
  | halted => exact updateChannel s (fun _ stopped => ProcessorState.noConfusion stopped) fun _ => ProcessorState.noConfusion
  | control p =>
    unfold moveControl
    split
    · exact refl s
    · exact ((updateChannel s (fun turn executing => ⟨turn, executing⟩) id).trans
        (updateEvents _ fun h => h.moveControl)).trans (raise _ _ _ _)
  | egressOn e => exact enableEgress s e
  | egressOff e => exact disableEgress s e
  | port p enable x => exact configurePort s p enable x
  | restarted p =>
    unfold restartPort
    split
    · exact updatePort s p id id id
    · exact refl s
  | counters p clear =>
    unfold clearCounters
    split
    · exact updatePort s p id id id
    · exact refl s
  | fixed => exact ensureTiming s
  | source x => exact (ensureTiming s).trans ⟨rfl, id, fun _ => id, fun _ => id, fun _ => id, id, id, id, id⟩
  | staged i r => exact of_eq rfl rfl rfl rfl rfl id
  | copied mask =>
    unfold State.copyActive
    exact of_eq rfl rfl rfl rfl rfl id
  | committed c later => exact setPendingCommit s fun d hd => Option.mem_some_iff.mp hd ▸ later
  | cancelled => exact setPendingCommit s fun _ none => absurd none (Option.not_mem_none _)
  | profile i x =>
    rw [s.writeProfile_writes i x]
    exact of_eq rfl rfl rfl rfl rfl id
  | clip i clear =>
    unfold clearClipCounter
    split
    · exact updateSlot s i _
    · exact refl s
  | meters e clear =>
    rw [clearMeters_eq]
    exact of_eq rfl rfl rfl rfl rfl id
  | noticed i => exact noticeFirst s i
  | switched i select =>
    unfold switchSlot
    split
    · exact noticeFirst s i
    · exact ((noticeFirst s i).trans (updateSlot _ i _)).trans (updateSlot _ i _)
  | monitor n f => exact of_eq rfl rfl rfl rfl rfl id
  | kind k x => exact updateEvents s id
  | acknowledged numbers => exact updateEvents s fun h => (h.acknowledgeAll _ numbers).resume
  | cleared mask => exact updateEvents s id
  | pins mask => exact updateEvents s id

theorem runProcessor (s : State) : StaysDone s s.runProcessor := by
  rcases runProcessor_cases s with ⟨-, h⟩ | h | ⟨older, newer, m, r, h, commanded⟩ <;> rw [h]
  · exact refl s
  · exact endTurn s
  · exact ((taken s older newer).trans (of_commanded commanded)).trans (respond _ _ _ _ _)

end StaysDone

/-- R154: after its look, the processor has looked. -/
theorem runProcessor_looked (s : State) : s.runProcessor.processorReady = false := by
  have spent : ∀ t : State, t.channel.turn = false → t.processorReady = false := fun t h => by
    simp [State.processorReady, h]
  rcases runProcessor_cases s with ⟨idle, h⟩ | h | ⟨older, newer, m, r, h, commanded⟩ <;> rw [h]
  · exact idle
  · exact spent _ rfl
  · exact ((StaysDone.of_commanded commanded).trans (StaysDone.respond _ _ _ _ _)).look (spent _ rfl)

/-- R154: the look makes the works of no slot due, and takes none but the protection unit's. -/
theorem runProcessor_transition (s : State) (i : SlotIdx) :
    s.runProcessor.slots[i].due.transition = s.slots[i].due.transition := by
  rcases runProcessor_spends s with idle | ⟨-, works⟩
  · rw [idle]
  · exact (works i).1

end Sys2Proof.Machine
end

section
/-! PROOFS. The works of the output slots at a boundary (R97, R109, R116, R123, R130, log entry 10): which of them are due
before and after each. -/

namespace Sys2Proof.Machine

/-! ### Folds under an invariant -/

/-- Operations done once for each index that agree wherever an invariant of one of them holds. -/
theorem forEach_congr_of_keeps {σ : Type} {n : Nat} {f g : Fin n → σ → σ} {I : σ → Prop} (keeps : ∀ i s, I s → I (g i s))
    (same : ∀ i s, I s → f i s = g i s) {s : σ} (hs : I s) : forEach n f s = forEach n g s := by
  have key : ∀ (l : List (Fin n)) (s : σ), I s → l.foldl (fun s i => f i s) s = l.foldl (fun s i => g i s) s := by
    intro l
    induction l with
    | nil => exact fun _ _ => rfl
    | cons i l ih =>
      intro s hs
      rw [List.foldl_cons, List.foldl_cons, same i s hs, ih _ (keeps i s hs)]
  exact key _ s hs

/-- An operation done once for each index, under an invariant: it establishes its own goal, which every other keeps. -/
theorem forEach_reaches_of {σ : Type} {n : Nat} {f : Fin n → σ → σ} {I : σ → Prop} {P : Fin n → σ → Prop}
    (keeps : ∀ i s, I s → I (f i s)) (own : ∀ i s, I s → P i (f i s)) (other : ∀ i j s, I s → P i s → P i (f j s))
    {s : σ} (hs : I s) (i : Fin n) : P i (forEach n f s) := by
  have key : ∀ (l : List (Fin n)) (s : σ), I s → (i ∈ l ∨ P i s) → P i (l.foldl (fun s i => f i s) s) := by
    intro l
    induction l with
    | nil => exact fun s _ h => h.resolve_left List.not_mem_nil
    | cons j l ih =>
      intro s hs h
      refine ih _ (keeps j s hs) ?_
      rcases h with mem | reached
      · rcases List.mem_cons.mp mem with rfl | mem
        · exact .inr (own i s hs)
        · exact .inl mem
      · exact .inr (other i j s hs reached)
  exact key _ s hs (.inl (List.mem_finRange i))

/-! ### Rows of works -/

theorem afterRows_nil (s : State) : afterRows [] s = s := rfl

theorem afterRows_work (w : Work) (rows : List Instr) (s : State) :
    afterRows (.boundary (.only w) :: rows) s = afterRows rows (s.takeWork w) := rfl

/-! ### One slot -/

/-- Of the slots, `t` differs from `s` in one alone. -/
def OnlySlot (i : SlotIdx) (s t : State) : Prop := ∀ j : SlotIdx, j ≠ i → t.slots[j] = s.slots[j]

namespace OnlySlot

variable {s t u : State} {i : SlotIdx}

theorem refl (i : SlotIdx) (s : State) : OnlySlot i s s := fun _ _ => rfl

theorem trans (h : OnlySlot i s t) (k : OnlySlot i t u) : OnlySlot i s u := fun j hj => (k j hj).trans (h j hj)

theorem of_slots (h : t.slots = s.slots) : OnlySlot i s t := fun j _ => by rw [h]

theorem of_update {f : Slot → Slot} (h : t.slots = updateAt s.slots i f) : OnlySlot i s t := fun j hj => by
  rw [h]
  exact updateAt_get_ne _ _ (Ne.symm hj)

end OnlySlot

namespace State

variable {s : State} {i : SlotIdx}

theorem updateSlot_slot (s : State) (i : SlotIdx) (f : Slot → Slot) : (s.updateSlot i f).slots[i] = f s.slots[i] :=
  updateAt_get_self _ _ _

theorem updateDue_due (s : State) (i : SlotIdx) (f : SlotDue → SlotDue) :
    (s.updateDue i f).slots[i].due = f s.slots[i].due := by
  rw [updateDue, updateSlot_slot]

theorem updateDue_only (s : State) (i : SlotIdx) (f : SlotDue → SlotDue) : OnlySlot i s (s.updateDue i f) :=
  .of_update (f := fun x => { x with due := f x.due }) rfl

/-! ### The commit, once it is taken -/

/-- R85: no commit is due where none takes effect at the boundary. -/
theorem commitDue_of_none (none : NoCommitDue s) : s.commitDue = .none := by
  unfold commitDue
  split
  · next c hc =>
    have later : c.effective ≠ s.timing.periodCounter := none c hc
    simp [later]
  · rfl

theorem commitFor_of_none (none : NoCommitDue s) (i : SlotIdx) : s.commitFor i = s := by
  unfold commitFor commitReplaces
  rw [commitDue_of_none none]
  rfl

/-- R85: the commit unit's work of a boundary leaves no commit due at it. -/
theorem takeCommitIfDue_none (boundary : s.timing.atBoundary = true) : NoCommitDue s.takeCommitIfDue := by
  unfold takeCommitIfDue
  split
  · next c _ =>
    obtain ⟨slots, routes, hw, -⟩ := s.takeCommit_writes c
    rw [hw]
    exact fun _ none => absurd none (Option.not_mem_none _)
  · next none =>
    intro c hc same
    have due : s.commitDue = some c := by
      have pending : s.pendingCommit = some c := hc
      simp [commitDue, pending, boundary, same]
    exact absurd (none.symm.trans due) (by simp)

/-! ### The works of one slot -/

theorem ensureCheck_only (s : State) (i : SlotIdx) : OnlySlot i s (s.ensureCheck i) := by
  obtain ⟨f, events, hw⟩ := s.ensureCheck_writes i
  exact .of_update (by rw [hw])

theorem ensureCheck_due (s : State) (i : SlotIdx) :
    (s.ensureCheck i).slots[i].due = { s.slots[i].due with check := false } := by
  unfold ensureCheck
  split
  · obtain ⟨failed, events, hw⟩ := s.checkSettle_writes i
    rw [updateDue_due, hw]
    exact congrArg (fun x : Slot => { x.due with check := false }) (updateAt_get_self _ _ _)
  · next taken =>
    have taken : s.slots[i].due.check = false := by simpa using taken
    rw [← taken]

theorem ensureCheck_of_taken (taken : s.slots[i].due.check = false) : s.ensureCheck i = s := by
  rw [ensureCheck, taken, if_neg (by decide)]

theorem ensureProtect_of_none (none : NoCommitDue s) (i : SlotIdx) :
    s.ensureProtect i = (s.ensureNotice i).ensureEvaluation i := by
  rw [ensureProtect, commitFor_of_none none]

theorem ensureProtect_only (none : NoCommitDue s) (i : SlotIdx) : OnlySlot i s (s.ensureProtect i) := by
  have noticed : OnlySlot i s (s.ensureNotice i) := by
    unfold ensureNotice
    split
    · exact .of_update (by rw [s.takeNotice_writes i])
    · exact .refl i s
  obtain ⟨f, events, hw⟩ := (s.ensureNotice i).ensureEvaluation_writes i
  rw [ensureProtect_of_none none]
  exact noticed.trans (.of_update (by rw [hw]))

theorem ensureProtect_due (none : NoCommitDue s) (i : SlotIdx) :
    (s.ensureProtect i).slots[i].due = { s.slots[i].due with notice := false, protect := false } := by
  have noticed : (s.ensureNotice i).slots[i].due = { s.slots[i].due with notice := false } := by
    unfold ensureNotice
    split
    · rw [s.takeNotice_writes i]
      exact congrArg Slot.due (updateAt_get_self s.slots i _)
    · next taken =>
      have taken : s.slots[i].due.notice = false := by simpa using taken
      rw [← taken]
  have evaluated : ∀ t : State, (t.ensureEvaluation i).slots[i].due = { t.slots[i].due with protect := false } := fun t => by
    unfold ensureEvaluation
    split
    · obtain ⟨f, new, events, hw⟩ := t.evaluateSlot_evaluates i
      rw [updateDue_due, hw]
      exact congrArg (fun x : Slot => { x.due with protect := false }) (updateAt_get_self _ _ _)
    · next taken =>
      have taken : t.slots[i].due.protect = false := by simpa using taken
      rw [← taken]
  rw [ensureProtect_of_none none, evaluated, noticed]

theorem ensureProtect_of_taken (none : NoCommitDue s) (notice : s.slots[i].due.notice = false)
    (protect : s.slots[i].due.protect = false) : s.ensureProtect i = s := by
  have noticed : s.ensureNotice i = s := by rw [ensureNotice, notice, if_neg (by decide)]
  rw [ensureProtect_of_none none, noticed, ensureEvaluation, protect, if_neg (by decide)]

/-- A slot whose settle check and protection work are taken. -/
theorem protected_of_taken (none : NoCommitDue s) {d : SlotDue}
    (due : s.slots[i].due = { d with check := false, notice := false, protect := false }) :
    (s.ensureCheck i).ensureProtect i = s := by
  rw [ensureCheck_of_taken (by rw [due]), ensureProtect_of_taken none (by rw [due]) (by rw [due])]

/-- R97: what the making of a slot's context comes after. -/
theorem protected_due (none : NoCommitDue s) (i : SlotIdx) :
    ((s.ensureCheck i).ensureProtect i).slots[i].due =
      { s.slots[i].due with check := false, notice := false, protect := false } := by
  rw [ensureProtect_due ((StaysDone.ensureCheck s i).commit none), ensureCheck_due]

theorem protected_only (none : NoCommitDue s) (i : SlotIdx) : OnlySlot i s ((s.ensureCheck i).ensureProtect i) :=
  (s.ensureCheck_only i).trans (ensureProtect_only ((StaysDone.ensureCheck s i).commit none) i)

theorem ensureStep_of_taken (taken : s.slots[i].due.transition = false) : s.ensureStep i = s := by
  rw [ensureStep, taken, if_neg (by decide)]

theorem ensureStep_only (none : NoCommitDue s) (i : SlotIdx) : OnlySlot i s (s.ensureStep i) := by
  unfold ensureStep
  split
  · have made : ∀ t : State, OnlySlot i t (t.makeContext i) := fun t => by
      obtain ⟨f, entered, events, hw⟩ := t.makeContext_writes i
      exact .of_update (by rw [hw])
    exact ((protected_only none i).trans (made _)).trans (updateDue_only _ i _)
  · exact .refl i s

/-- R97: the making of a slot's context uses up what waited for it. -/
theorem ensureStep_slot (none : NoCommitDue s) (due : s.slots[i].due.transition = true) :
    (s.ensureStep i).slots[i].due =
        { s.slots[i].due with check := false, notice := false, protect := false, transition := false } ∧
      (s.ensureStep i).slots[i].settleFailed = false ∧ (s.ensureStep i).slots[i].requests = [] := by
  have before := protected_due none i
  obtain ⟨f, entered, events, hw⟩ := ((s.ensureCheck i).ensureProtect i).makeContext_writes i
  rw [ensureStep, if_pos due, hw, updateDue, updateSlot_slot]
  dsimp only
  rw [updateAt_get_self]
  dsimp only
  rw [before]
  exact ⟨rfl, rfl, rfl⟩

theorem ensurePicks_slots (s : State) (l : MixList) : (s.ensurePicks l).slots = s.slots := by
  unfold ensurePicks
  refine forEach_keeps (P := fun t : State => t.slots = s.slots) (fun p t h => ?_) rfl
  unfold ensurePick
  split
  · split
    · obtain ⟨f, events, hw⟩ := t.pickFrame_writes p
      rw [hw]
      exact h
    · exact h
  · exact h

/-- R130: the sample of a slot takes its metering alone. -/
theorem mixPicked_slots (s : State) (i : SlotIdx) :
    ∃ (meters : Meters → Meters) (output : OutputSample), (s.mixPicked i).slots =
      updateAt s.slots i fun x => { x with meters := meters x.meters, output := output, due := { x.due with mix := false } } := by
  obtain ⟨meters, output, events, hw⟩ := (s.ensurePicks s.slots[i].context.sounding).mixSlot_writes i
  refine ⟨meters, output, ?_⟩
  rw [mixPicked, hw, updateDue, updateSlot]
  dsimp only
  rw [updateAt_updateAt, ensurePicks_slots]

theorem mixPicked_slot (s : State) (i : SlotIdx) :
    (s.mixPicked i).slots[i].due = { s.slots[i].due with mix := false } ∧
      (s.mixPicked i).slots[i].settleFailed = s.slots[i].settleFailed ∧
      (s.mixPicked i).slots[i].requests = s.slots[i].requests := by
  obtain ⟨meters, output, hw⟩ := s.mixPicked_slots i
  have slot := (congrArg (fun v : Vector Slot 64 => v[i]) hw).trans (updateAt_get_self s.slots i _)
  dsimp only at slot
  rw [slot]
  exact ⟨rfl, rfl, rfl⟩

theorem ensureMix_of_taken (taken : s.slots[i].due.mix = false) : s.ensureMix i = s := by
  rw [ensureMix, taken, if_neg (by decide)]

theorem ensureMix_only (none : NoCommitDue s) (i : SlotIdx) : OnlySlot i s (s.ensureMix i) := by
  unfold ensureMix
  split
  · obtain ⟨meters, output, hw⟩ := (s.ensureStep i).mixPicked_slots i
    exact (ensureStep_only none i).trans (.of_update hw)
  · exact .refl i s

/-- R137: the metering of a slot whose context is made. -/
theorem ensureMix_slot (made : s.slots[i].due.transition = false) :
    (s.ensureMix i).slots[i].due = { s.slots[i].due with mix := false } ∧
      (s.ensureMix i).slots[i].settleFailed = s.slots[i].settleFailed ∧
      (s.ensureMix i).slots[i].requests = s.slots[i].requests := by
  unfold ensureMix
  split
  · rw [ensureStep_of_taken made]
    exact s.mixPicked_slot i
  · next taken =>
    have taken : s.slots[i].due.mix = false := by simpa using taken
    exact ⟨by rw [← taken], rfl, rfl⟩

/-! ### All the works of a slot -/

theorem finishSlot_only (none : NoCommitDue s) (i : SlotIdx) : OnlySlot i s (s.finishSlot i) := by
  have none1 := ((StaysDone.ensureCheck s i).trans (StaysDone.ensureProtect _ i)).commit none
  have none2 := (StaysDone.ensureStep _ i).commit none1
  exact ((protected_only none i).trans (ensureStep_only none1 i)).trans (ensureMix_only none2 i)

/-- A slot whose works have been taken in their order: what waits for the making of its context waits only until it is made. -/
def InOrder (s : State) (i : SlotIdx) : Prop :=
  s.slots[i].due.transition = true ∨
    s.slots[i].due.check = false ∧ s.slots[i].due.notice = false ∧ s.slots[i].due.protect = false ∧
      s.slots[i].settleFailed = false ∧ s.slots[i].requests = []

/-- R97, R137: the works of a slot, all taken. -/
def SlotFinished (s : State) (i : SlotIdx) : Prop :=
  s.slots[i].due = ⟨false, false, false, false, false⟩ ∧ s.slots[i].settleFailed = false ∧ s.slots[i].requests = []

theorem finishSlot_of_due (none : NoCommitDue s) (due : s.slots[i].due.transition = true) :
    (s.finishSlot i).SlotFinished i := by
  have none1 := ((StaysDone.ensureCheck s i).trans (StaysDone.ensureProtect _ i)).commit none
  have before := protected_due none i
  obtain ⟨due1, failed1, requests1⟩ := ensureStep_slot (i := i) none1 (by rw [before]; exact due)
  obtain ⟨due2, failed2, requests2⟩ := ensureMix_slot (i := i) (s := ((s.ensureCheck i).ensureProtect i).ensureStep i)
    (by rw [due1])
  refine ⟨?_, failed2.trans failed1, requests2.trans requests1⟩
  rw [finishSlot, due2, due1]

/-- R97, R137: in either order of its works, every one of a slot's works is taken. -/
theorem finishSlot_due (none : NoCommitDue s) (i : SlotIdx) :
    (s.finishSlot i).slots[i].due = ⟨false, false, false, false, false⟩ := by
  by_cases due : s.slots[i].due.transition = true
  · exact (finishSlot_of_due none due).1
  · have made : s.slots[i].due.transition = false := by simpa using due
    have before := protected_due none i
    have made1 : ((s.ensureCheck i).ensureProtect i).slots[i].due.transition = false := by rw [before]; exact made
    rw [finishSlot, ensureStep_of_taken made1, (ensureMix_slot made1).1, before]
    dsimp only
    rw [made]

theorem finishSlot_finished (none : NoCommitDue s) (order : s.InOrder i) : (s.finishSlot i).SlotFinished i := by
  rcases order with due | ⟨check, notice, protect, failed, requests⟩
  · exact finishSlot_of_due none due
  · by_cases due : s.slots[i].due.transition = true
    · exact finishSlot_of_due none due
    · have made : s.slots[i].due.transition = false := by simpa using due
      refine ⟨finishSlot_due none i, ?_⟩
      have before : (s.ensureCheck i).ensureProtect i = s := by
        rw [ensureCheck_of_taken check, ensureProtect_of_taken none notice protect]
      rw [finishSlot, before, ensureStep_of_taken made, (ensureMix_slot made).2.1, (ensureMix_slot made).2.2]
      exact ⟨failed, requests⟩

/-- The rows of a slot's works, once the processor has looked: none of them waits for a SWITCH. -/
theorem switchFirst_of_looked (looked : s.processorReady = false) (i : SlotIdx) :
    s.switchFirst i = if s.slots[i].due.transition then (s.ensureCheck i).ensureProtect i else s := by
  have looked1 := ((StaysDone.ensureCheck s i).trans (StaysDone.ensureProtect _ i)).look looked
  have unchosen : ((s.ensureCheck i).ensureProtect i).switchWaits i = false := by
    rw [switchWaits, choice, looked1]
    rfl
  rw [switchFirst]
  dsimp only
  rw [unchosen]
  rfl

theorem slotRows_eq (none : NoCommitDue s) (looked : s.processorReady = false) (i : SlotIdx) :
    afterRows [.boundary (.only (.check i)), .boundary (.only (.protect i)), .boundary (.only (.transition i)),
      .boundary (.only (.mix i))] s = s.finishSlot i := by
  obtain ⟨v, hv⟩ : ∃ v, v = (s.ensureCheck i).ensureProtect i := ⟨_, rfl⟩
  have before := (StaysDone.ensureCheck s i).trans (StaysDone.ensureProtect _ i)
  have due := protected_due none i
  rw [← hv] at before due
  have step : (v.switchFirst i).ensureStep i = v.ensureStep i := by
    rw [switchFirst_of_looked (before.look looked), protected_of_taken (before.commit none) due, ite_self]
  have made : (v.ensureStep i).slots[i].due.transition = false := by
    by_cases h : v.slots[i].due.transition = true
    · rw [(ensureStep_slot (before.commit none) h).1]
    · have taken : v.slots[i].due.transition = false := by simpa using h
      rw [ensureStep_of_taken taken, taken]
  have mix : ((v.ensureStep i).switchFirst i).ensureMix i = (v.ensureStep i).ensureMix i := by
    rw [switchFirst, made, if_neg (by decide)]
  rw [afterRows_work, afterRows_work, afterRows_work, afterRows_work, afterRows_nil]
  dsimp only [takeWork]
  rw [← hv, step, mix, hv, finishSlot]

end State

end Sys2Proof.Machine
end

section
/-! PROOFS. The rest of a boundary (log entry 3), stage by stage: what each leaves taken. -/

namespace Sys2Proof.Machine

namespace State

variable {s : State}

/-! ### The works of the ingress ports -/

theorem ensureWindow_windowDue (s : State) (p : PortIdx) : (s.ensureWindow p).ports[p].windowDue = false := by
  unfold ensureWindow
  split
  · have counted : (s.updatePort p Port.countDown).ports[p].windowDue = false := by rw [updatePort_port]; rfl
    unfold takeWindow
    dsimp only
    split
    · exact (StaysDone.completeWindow _ p).window p counted
    · exact counted
  · next taken => simpa using taken

theorem ensureSilence_silenceDue (s : State) (p : PortIdx) : (s.ensureSilence p).ports[p].silenceDue = false := by
  unfold ensureSilence
  split
  · have counted : (s.updatePort p Port.countSilence).ports[p].silenceDue = false := by rw [updatePort_port]; rfl
    unfold takeSilence
    dsimp only
    split
    · exact (StaysDone.rejectFragment _ p _).silence p counted
    · exact counted
  · next taken => simpa using taken

theorem ensurePick_pickDue (s : State) (p : PortIdx) : (s.ensurePick p).ports[p].store.pickDue = false := by
  unfold ensurePick
  split
  · have picked : (s.updatePort p fun x => { x with store := x.store.pick x.isLocked }).ports[p].store.pickDue = false := by
      rw [updatePort_port]
      exact ElasticStore.pick_pickDue _ _
    unfold pickFrame
    dsimp only
    split
    · exact (StaysDone.countRepeat _ p).pick p picked
    · exact picked
  · next taken => simpa using taken

theorem ensureWindow_slots (s : State) (p : PortIdx) : (s.ensureWindow p).slots = s.slots := by
  unfold ensureWindow
  split
  · obtain ⟨f, events, hw⟩ := s.takeWindow_writes p
    rw [hw]
  · rfl

theorem ensureSilence_slots (s : State) (p : PortIdx) : (s.ensureSilence p).slots = s.slots := by
  unfold ensureSilence
  split
  · obtain ⟨f, events, hw⟩ := s.takeSilence_writes p
    rw [hw]
  · rfl

theorem completeSending_slots (s : State) (e : PortIdx) : (s.completeSending e).slots = s.slots := by
  obtain ⟨f, processor, events, hw⟩ := s.completeSending_writes e
  rw [hw]

theorem ensurePick_slots (s : State) (p : PortIdx) : (s.ensurePick p).slots = s.slots := by
  unfold ensurePick
  split
  · obtain ⟨f, events, hw⟩ := s.pickFrame_writes p
    rw [hw]
  · rfl

/-! ### The soft reset -/

theorem softResetDue_eq_false_iff (boundary : s.timing.atBoundary = true) : s.softResetDue = false ↔ NoSoftReset s := by
  simp only [softResetDue, boundary, Bool.true_and, Bool.or_eq_false_iff, decide_eq_false_iff_not, NoSoftReset,
    List.any_eq_false, Option.any_eq_true, decide_eq_true_eq, not_exists, not_and]
  refine and_congr_right fun _ => ⟨fun h e x => h _ (by simp) x, fun h y mem x sent => ?_⟩
  obtain ⟨k, hk, rfl⟩ := List.getElem_of_mem mem
  exact h ⟨k, by simpa using hk⟩ x (by simpa using sent)

/-- R164: at boundary 0 no message is being sent, and the processor executes. -/
theorem softReset_noSoftReset (s : State) : NoSoftReset s.softReset := by
  unfold softReset
  obtain ⟨timing, events, hw⟩ := (s.softResetValues.raise .resetDone 0 ResetCause.soft.code).armWorks.fixTiming_writes
  rw [hw]
  refine ⟨ProcessorState.noConfusion, fun e x sent => absurd (sent.symm.trans (Egress.fullySent_of_idle ?_)) (by simp)⟩
  dsimp only
  rw [armWorks_egress]
  exact congrArg Egress.transmitter (s.softResetValues_egress e)

theorem softReset_boundary (s : State) : s.softReset.timing.atBoundary = s.timing.atBoundary := by
  rw [softReset, fixTiming_timing]
  rfl

theorem armWorks_slot (s : State) (i : SlotIdx) :
    s.armWorks.slots[i] = { s.slots[i] with due := s.slots[i].due.arm } := by
  have slots : s.armWorks.slots = mapTable s.slots fun x => { x with due := x.due.arm } := rfl
  rw [slots, Fin.getElem_fin, mapTable_getElem, Fin.getElem_fin]

theorem softReset_transition (s : State) (i : SlotIdx) : s.softReset.slots[i].due.transition = true := by
  unfold softReset
  obtain ⟨timing, events, hw⟩ := (s.softResetValues.raise .resetDone 0 ResetCause.soft.code).armWorks.fixTiming_writes
  rw [hw]
  dsimp only
  rw [armWorks_slot]
  rfl

/-! ### The stages of the rest -/

/-- R164, R48, R85: the soft reset, the timing fix and the commit. -/
def begun (s : State) : State := s.softResetIfDue.ensureTiming.takeCommitIfDue

/-- R24, R149, R157: the windows and the silence counts, and the messages fully sent. -/
def counted (s : State) : State :=
  forEach 4 (fun e t => t.completeSending e) (forEach 4 (fun p t => (t.ensureWindow p).ensureSilence p) s)

/-- R57, R97, R130: the picks and the slots. -/
def mixed (s : State) : State := forEach 64 (fun i t => t.finishSlot i) (forEach 4 (fun p t => t.ensurePick p) s)

/-- R140, R18: the monitors, the transmitters and the frames. -/
def sent (s : State) : State :=
  forEach 4 (fun e t => (t.ensureTransmitter e).ensureFrame e) (forEach 4 (fun m t => t.ensureMonitor m) s)

theorem finishBoundary_eq (boundary : s.timing.atBoundary = true) :
    s.finishBoundary = s.begun.counted.timeOutReports.runProcessor.mixed.sent := if_pos boundary

end State

namespace StaysDone

open State (begun counted mixed sent)

theorem counted (s : State) : StaysDone s s.counted :=
  forEach_keeps (P := StaysDone s) (fun e t h => h.trans (completeSending t e))
    (forEach_keeps (P := StaysDone s) (fun p t h => (h.trans (ensureWindow t p)).trans (ensureSilence _ p)) (refl s))

theorem picks (s : State) : StaysDone s (forEach 4 (fun p t => t.ensurePick p) s) :=
  forEach_keeps (P := StaysDone s) (fun p t h => h.trans (ensurePick t p)) (refl s)

theorem slots (s : State) : StaysDone s (forEach 64 (fun i t => t.finishSlot i) s) :=
  forEach_keeps (P := StaysDone s) (fun i t h => h.trans (finishSlot t i)) (refl s)

theorem mixed (s : State) : StaysDone s s.mixed := (picks s).trans (slots _)

theorem monitors (s : State) : StaysDone s (forEach 4 (fun m t => t.ensureMonitor m) s) :=
  forEach_keeps (P := StaysDone s) (fun m t h => h.trans (ensureMonitor t m)) (refl s)

theorem sent (s : State) : StaysDone s s.sent :=
  forEach_keeps (P := StaysDone s) (fun e t h => (h.trans (ensureTransmitter t e)).trans (ensureFrame _ e)) (monitors s)

end StaysDone

namespace State

variable {s : State}

/-! ### The first stages -/

/-- R164, R48, R85: what the beginning of the rest takes. -/
theorem begun_taken (boundary : s.timing.atBoundary = true) :
    s.begun.timing.atBoundary = true ∧ s.begun.timing.fixDue = false ∧ NoCommitDue s.begun ∧ NoSoftReset s.begun := by
  have reset : s.softResetIfDue.timing.atBoundary = true ∧ NoSoftReset s.softResetIfDue := by
    unfold softResetIfDue
    split
    · exact ⟨s.softReset_boundary.trans boundary, s.softReset_noSoftReset⟩
    · next undue => exact ⟨boundary, (softResetDue_eq_false_iff boundary).mp (by simpa using undue)⟩
  have fixed := StaysDone.ensureTiming s.softResetIfDue
  have committed := StaysDone.takeCommitIfDue s.softResetIfDue.ensureTiming
  have boundary' := fixed.boundary.trans reset.1
  exact ⟨committed.boundary.trans boundary', committed.fix s.softResetIfDue.ensureTiming_fixDue,
    takeCommitIfDue_none boundary', committed.reset (fixed.reset reset.2)⟩

/-- The beginning of the rest takes the making of no context. -/
theorem begun_transition (due : ∀ i : SlotIdx, s.slots[i].due.transition = true) (i : SlotIdx) :
    s.begun.slots[i].due.transition = true := by
  have reset : s.softResetIfDue.slots[i].due.transition = true := by
    unfold softResetIfDue
    split
    · exact s.softReset_transition i
    · exact due i
  obtain ⟨timing, events, hw⟩ := s.softResetIfDue.ensureTiming_writes
  have fixed : s.softResetIfDue.ensureTiming.slots[i].due.transition = true := by rw [hw]; exact reset
  unfold begun takeCommitIfDue
  split
  · rw [(takeCommit_keepsWorks _ _).transition i]
    exact fixed
  · exact fixed

theorem counted_slots (s : State) : s.counted.slots = s.slots :=
  forEach_keeps (P := fun t : State => t.slots = s.slots) (fun e t h => (t.completeSending_slots e).trans h)
    (forEach_keeps (P := fun t : State => t.slots = s.slots)
      (fun p t h => ((ensureSilence_slots _ p).trans (t.ensureWindow_slots p)).trans h) rfl)

theorem counted_due (s : State) (p : PortIdx) :
    s.counted.ports[p].windowDue = false ∧ s.counted.ports[p].silenceDue = false := by
  have sendings : ∀ t : State, StaysDone t (forEach 4 (fun e t => t.completeSending e) t) := fun t =>
    forEach_keeps (P := StaysDone t) (fun e u h => h.trans (StaysDone.completeSending u e)) (StaysDone.refl t)
  have counts := forEach_reaches (f := fun p t => (ensureWindow t p).ensureSilence p)
    (P := fun p t => t.ports[p].windowDue = false ∧ t.ports[p].silenceDue = false)
    (fun p t => ⟨(StaysDone.ensureSilence _ p).window p (t.ensureWindow_windowDue p), ensureSilence_silenceDue _ p⟩)
    (fun p q t due =>
      have kept := (StaysDone.ensureWindow t q).trans (StaysDone.ensureSilence _ q)
      ⟨kept.window p due.1, kept.silence p due.2⟩) s p
  exact ⟨(sendings _).window p counts.1, (sendings _).silence p counts.2⟩

/-! ### The picks and the slots -/

theorem mixed_pickDue (s : State) (p : PortIdx) : s.mixed.ports[p].store.pickDue = false := by
  have picked : (forEach 4 (fun p t => ensurePick t p) s).ports[p].store.pickDue = false :=
    forEach_reaches (f := fun p t => ensurePick t p) (P := fun p t => t.ports[p].store.pickDue = false)
      (fun p t => t.ensurePick_pickDue p) (fun p q t due => (StaysDone.ensurePick t q).pick p due) s p
  have kept : StaysDone (forEach 4 (fun p t => ensurePick t p) s) s.mixed := StaysDone.slots _
  generalize s.mixed = t at kept ⊢
  exact kept.pick p picked

theorem picks_slots (s : State) : (forEach 4 (fun p t => t.ensurePick p) s).slots = s.slots :=
  forEach_keeps (P := fun t : State => t.slots = s.slots) (fun p t h => (t.ensurePick_slots p).trans h) rfl

/-- R97, R134: every slot's context and sample are made. -/
def AllMade (s : State) : Prop := ∀ i : SlotIdx, s.slots[i].due.transition = false ∧ s.slots[i].due.mix = false

theorem mixed_made (none : NoCommitDue s) : s.mixed.AllMade := fun i => by
  have due := forEach_reaches_of (f := fun i t => finishSlot t i) (I := NoCommitDue)
    (P := fun i t => t.slots[i].due = ⟨false, false, false, false, false⟩)
    (fun i t => (StaysDone.finishSlot t i).commit) (fun i t none => finishSlot_due none i)
    (fun i j t none due => by
      by_cases same : i = j
      · subst same
        exact finishSlot_due none i
      · rw [finishSlot_only none j i same]
        exact due)
    ((StaysDone.picks s).commit none) i
  rw [mixed, due]
  exact ⟨rfl, rfl⟩

/-- R97, R137: at a boundary whose contexts are all to be made, every slot's works are taken. -/
theorem mixed_finished (none : NoCommitDue s) (due : ∀ i : SlotIdx, s.slots[i].due.transition = true) (i : SlotIdx) :
    s.mixed.SlotFinished i := by
  have ordered : ∀ (i : SlotIdx) (t : State), t.SlotFinished i → t.InOrder i := fun i t ⟨works, failed, requests⟩ =>
    .inr (by rw [works]; exact ⟨rfl, rfl, rfl, failed, requests⟩)
  refine forEach_reaches_of (f := fun i t => finishSlot t i) (P := fun i t => t.SlotFinished i)
    (I := fun t => NoCommitDue t ∧ ∀ i, t.InOrder i)
    (fun j t ⟨none, order⟩ => ⟨(StaysDone.finishSlot t j).commit none, fun i => ?_⟩)
    (fun i t ⟨none, order⟩ => finishSlot_finished none (order i)) (fun i j t ⟨none, order⟩ finished => ?_)
    ⟨(StaysDone.picks s).commit none, fun i => .inl ?_⟩ i
  · by_cases same : i = j
    · subst same
      exact ordered i _ (finishSlot_finished none (order i))
    · rw [InOrder, finishSlot_only none j i same]
      exact order i
  · by_cases same : i = j
    · subst same
      exact finishSlot_finished none (order i)
    · rw [SlotFinished, finishSlot_only none j i same]
      exact finished
  · rw [picks_slots]
    exact due i

/-! ### The monitors and the egress ports -/

theorem AllMade.of_slots {t : State} (made : s.AllMade) (slots : t.slots = s.slots) : t.AllMade := fun i => by
  rw [slots]
  exact made i

theorem AllMade.samplesMade (made : s.AllMade) (e : PortIdx) : s.SamplesMade e := fun k => made (slotIndex e k)

/-- R140: the evaluation of a monitor whose subject's sample is made. -/
theorem ensureMonitor_writes (made : s.AllMade) (m : Fin 4) :
    ∃ f events, s.ensureMonitor m = { s with monitors := updateAt s.monitors m f, events := events } := by
  unfold ensureMonitor
  split
  · rw [ensureMix_of_taken (made _).2]
    exact s.evaluateMonitor_writes m
  · exact ⟨id, s.events, by rw [updateAt_id _ _ rfl]⟩

theorem AllMade.ensureMonitor (made : s.AllMade) (m : Fin 4) : (s.ensureMonitor m).AllMade := by
  obtain ⟨f, events, hw⟩ := ensureMonitor_writes made m
  rw [hw]
  exact made

theorem ensureMonitor_evalDue (made : s.AllMade) (m : Fin 4) : (s.ensureMonitor m).monitors[m].evalDue = false := by
  have evaluated : ∀ (x : Monitor) (mag : Nat),
      (if x.enabled then x.evaluate mag else { x with evalDue := false }).evalDue = false := fun x mag => by
    unfold Monitor.evaluate
    repeat' split
    all_goals rfl
  unfold ensureMonitor
  split
  · rw [ensureMix_of_taken (made _).2, evaluateMonitor]
    split <;> exact (congrArg Monitor.evalDue (updateAt_get_self s.monitors m _)).trans (evaluated _ _)
  · next taken => simpa using taken

/-- R157, R18: a transmitter's turn and its frame, once the samples are made. -/
theorem sendTurn_writes (made : s.AllMade) (e : PortIdx) :
    ∃ f processor events, (s.ensureTransmitter e).ensureFrame e =
      { s with
        egress := updateAt s.egress e f
        channel := { s.channel with processor := processor }
        events := events } := by
  obtain ⟨f, processor, events, hw⟩ : ∃ f processor events, s.ensureTransmitter e =
      { s with
        egress := updateAt s.egress e f
        channel := { s.channel with processor := processor }
        events := events } := by
    unfold ensureTransmitter
    split
    · exact s.takeTransmitter_writes e
    · exact ⟨id, s.channel.processor, s.events, by rw [updateAt_id _ _ rfl]⟩
  by_cases due : (s.ensureTransmitter e).egress[e].frameDue = true
  · have samples := (made.samplesMade e).of_slots (s.ensureTransmitter_slots e)
    obtain ⟨g, hg⟩ := (s.ensureTransmitter e).sendFrame_writes e
    rw [ensureFrame_of_made due samples (s.ensureTransmitter_serviceDue e), hg, hw]
    dsimp only
    rw [updateAt_updateAt]
    exact ⟨_, processor, events, rfl⟩
  · rw [ensureFrame, if_neg due]
    exact ⟨f, processor, events, hw⟩

theorem AllMade.sendTurn (made : s.AllMade) (e : PortIdx) : ((s.ensureTransmitter e).ensureFrame e).AllMade := by
  obtain ⟨f, processor, events, hw⟩ := sendTurn_writes made e
  rw [hw]
  exact made

theorem sendTurn_due (made : s.AllMade) (e : PortIdx) :
    ((s.ensureTransmitter e).ensureFrame e).egress[e].serviceDue = false ∧
      ((s.ensureTransmitter e).ensureFrame e).egress[e].frameDue = false := by
  have supplied := s.ensureTransmitter_serviceDue e
  by_cases due : (s.ensureTransmitter e).egress[e].frameDue = true
  · have samples := (made.samplesMade e).of_slots (s.ensureTransmitter_slots e)
    rw [ensureFrame_of_made due samples supplied, sendFrame, updateEgress_egress_self]
    exact ⟨supplied, rfl⟩
  · rw [ensureFrame, if_neg due]
    exact ⟨supplied, by simpa using due⟩

theorem monitors_slots (made : s.AllMade) :
    (forEach 4 (fun m t => t.ensureMonitor m) s).slots = s.slots :=
  forEach_keeps (P := fun t : State => t.slots = s.slots) (fun m t h => by
    obtain ⟨f, events, hw⟩ := ensureMonitor_writes (made.of_slots h) m
    rw [hw]
    exact h) rfl

/-- R140, R18: with every sample made, the last stage takes the works of the monitors and the egress ports, and none of a
slot. -/
theorem sent_taken (made : s.AllMade) :
    s.sent.slots = s.slots ∧ (∀ m : Fin 4, s.sent.monitors[m].evalDue = false) ∧
      ∀ e : PortIdx, s.sent.egress[e].serviceDue = false ∧ s.sent.egress[e].frameDue = false := by
  obtain ⟨v, hv⟩ : ∃ v, v = forEach 4 (fun m t => ensureMonitor t m) s := ⟨_, rfl⟩
  have slots : v.slots = s.slots := hv ▸ monitors_slots made
  have evaluated : ∀ m : Fin 4, v.monitors[m].evalDue = false := hv ▸
    forEach_reaches_of (f := fun m t => ensureMonitor t m) (I := AllMade) (P := fun m t => t.monitors[m].evalDue = false)
      (fun m t made => made.ensureMonitor m) (fun m t made => ensureMonitor_evalDue made m)
      (fun m n t made due => by
        by_cases same : n = m
        · subst same
          exact ensureMonitor_evalDue made n
        · obtain ⟨f, events, hw⟩ := ensureMonitor_writes made n
          rw [hw]
          dsimp only
          rw [updateAt_get_ne _ _ same]
          exact due) made
  have turns : s.sent.slots = v.slots ∧ s.sent.monitors = v.monitors := by
    rw [sent, ← hv]
    exact forEach_keeps (P := fun t : State => t.slots = v.slots ∧ t.monitors = v.monitors) (fun e t ⟨same, monitors⟩ => by
      obtain ⟨f, processor, events, hw⟩ := sendTurn_writes ((made.of_slots slots).of_slots same) e
      rw [hw]
      exact ⟨same, monitors⟩) ⟨rfl, rfl⟩
  refine ⟨turns.1.trans slots, fun m => by rw [turns.2]; exact evaluated m, fun e => ?_⟩
  rw [sent, ← hv]
  exact forEach_reaches_of (f := fun e t => (ensureTransmitter t e).ensureFrame e) (I := AllMade)
    (P := fun e t => t.egress[e].serviceDue = false ∧ t.egress[e].frameDue = false)
    (fun e t made => made.sendTurn e) (fun e t made => sendTurn_due made e)
    (fun e d t made due => by
      by_cases same : d = e
      · subst same
        exact sendTurn_due made d
      · obtain ⟨f, processor, events, hw⟩ := sendTurn_writes made d
        rw [hw]
        dsimp only
        rw [updateAt_get_ne _ _ same]
        exact due) (made.of_slots slots) e

end State

end Sys2Proof.Machine
end

section
/-! PROOFS. The rest of a boundary as the run of its works' rows (log entry 3), and what is left due after it. -/

namespace Sys2Proof.Machine

/-! ### Rows one after another -/

theorem afterRows_append (a b : List Instr) (s : State) : afterRows (a ++ b) s = afterRows b (afterRows a s) :=
  List.foldl_append

theorem afterRows_flatMap {n : Nat} (rows : Fin n → List Instr) (s : State) :
    afterRows ((List.finRange n).flatMap rows) s = forEach n (fun i t => afterRows (rows i) t) s := List.foldl_flatMap

theorem afterRows_map {n : Nat} (row : Fin n → Instr) (s : State) :
    afterRows ((List.finRange n).map row) s = forEach n (fun i t => afterRows [row i] t) s := List.foldl_map

/-- R174: the rows of the reports' timeouts, of all the records the queue holds before the first. -/
theorem afterRows_timeouts (s : State) :
    afterRows (s.events.queue.map fun r => .reportTimeout r.sequence) s = s.timeOutReports := by
  rw [afterRows, List.foldl_map, State.timeOutReports_eq, ← State.foldl_timeOut]
  rfl

/-- R154, R102: once the processor has looked, no SWITCH is too late. -/
theorem not_switchTooLate_of_looked {s : State} (looked : s.processorReady = false) : ¬SwitchTooLate s := by
  rintro ⟨older, newer, m, i, backup, turn, -⟩
  simp [State.processorReady, turn.boundary, turn.turn, turn.executing] at looked

namespace State

variable {s : State} {e : PortIdx}

theorem transmitterWork_of_looked (looked : s.processorReady = false) : s.transmitterWork e = s.ensureTransmitter e := by
  have intime : ∀ v : State, v.processorReady = false → v.afterLook (ensureTransmitter · e) = v.ensureTransmitter e :=
    fun v hv => afterLook_of_intime fun late =>
      absurd late (not_switchTooLate_of_looked ((StaysDone.ensureTransmitter v e).look hv))
  unfold transmitterWork
  split
  · next on => rw [intime _ ((StaysDone.completeSending s e).look looked), ensureTransmitter_completeSending on]
  · exact intime s looked

/-! ### The rows of each stage -/

theorem afterRows_begun_counted (s : State) :
    afterRows
      ([.softResetTakesEffect, .boundary (.only .timing), .boundary (.only .commit)] ++
        (List.finRange 4).flatMap (fun p => [.boundary (.only (.window p)), .boundary (.only (.silence p))]) ++
        (List.finRange 4).map .messageFullySent) s = s.begun.counted := by
  rw [afterRows_append, afterRows_append, afterRows_flatMap, afterRows_map]
  rfl

theorem afterRows_picks (s : State) :
    afterRows ((List.finRange 4).map fun p => .boundary (.only (.pick p))) s = forEach 4 (fun p t => t.ensurePick p) s := by
  rw [afterRows_map]
  rfl

theorem afterRows_slots (none : NoCommitDue s) (looked : s.processorReady = false) :
    afterRows ((List.finRange 64).flatMap fun i =>
      [.boundary (.only (.check i)), .boundary (.only (.protect i)), .boundary (.only (.transition i)),
        .boundary (.only (.mix i))]) s = forEach 64 (fun i t => t.finishSlot i) s := by
  rw [afterRows_flatMap]
  exact forEach_congr_of_keeps (I := fun t => NoCommitDue t ∧ t.processorReady = false)
    (fun i t ⟨none, looked⟩ => ⟨(StaysDone.finishSlot t i).commit none, (StaysDone.finishSlot t i).look looked⟩)
    (fun i t ⟨none, looked⟩ => slotRows_eq none looked i) ⟨none, looked⟩

theorem afterRows_monitors (made : s.AllMade) :
    afterRows ((List.finRange 4).map fun n => .boundary (.only (.monitor n))) s =
      forEach 4 (fun m t => t.ensureMonitor m) s := by
  rw [afterRows_map]
  refine forEach_congr_of_keeps (I := AllMade) (fun m t made => made.ensureMonitor m) (fun m t made => ?_) made
  rw [afterRows_work, afterRows_nil]
  dsimp only [takeWork]
  rw [switchFirst, (made _).1, if_neg (by decide)]

theorem afterRows_turns (made : s.AllMade) (looked : s.processorReady = false) :
    afterRows ((List.finRange 4).flatMap fun e => [.boundary (.only (.transmitter e)), .boundary (.only (.frame e))]) s =
      forEach 4 (fun e t => (t.ensureTransmitter e).ensureFrame e) s := by
  rw [afterRows_flatMap]
  refine forEach_congr_of_keeps (I := fun t => AllMade t ∧ t.processorReady = false)
    (fun e t ⟨made, looked⟩ => ⟨made.sendTurn e, ?_⟩) (fun e t ⟨made, looked⟩ => ?_) ⟨made, looked⟩
  · exact ((StaysDone.ensureTransmitter t e).trans (StaysDone.ensureFrame _ e)).look looked
  · have samples := (made.samplesMade e).of_slots (t.ensureTransmitter_slots e)
    rw [afterRows_work, afterRows_work, afterRows_nil]
    dsimp only [takeWork]
    rw [transmitterWork_of_looked looked, frameWork_of_supplied samples (t.ensureTransmitter_serviceDue e)]

/-- The look, the picks and the slots, and then the monitors, the transmitters and the frames, are the runs of their rows. -/
theorem afterRows_mixed_sent (none : NoCommitDue s) :
    afterRows
      ([.boundary (.only .look)] ++ (List.finRange 4).map (fun p => .boundary (.only (.pick p))) ++
        (List.finRange 64).flatMap (fun i =>
          [.boundary (.only (.check i)), .boundary (.only (.protect i)), .boundary (.only (.transition i)),
            .boundary (.only (.mix i))]) ++
        (List.finRange 4).map (fun n => .boundary (.only (.monitor n))) ++
        (List.finRange 4).flatMap (fun e => [.boundary (.only (.transmitter e)), .boundary (.only (.frame e))])) s =
      s.runProcessor.mixed.sent := by
  obtain ⟨t, ht⟩ : ∃ t, t = s.runProcessor := ⟨_, rfl⟩
  have none : NoCommitDue t := ht ▸ (StaysDone.runProcessor s).commit none
  have looked : t.processorReady = false := ht ▸ runProcessor_looked s
  have picked := StaysDone.picks t
  have made := mixed_made none
  have monitored := StaysDone.monitors t.mixed
  have look : afterRows [.boundary (.only .look)] s = t := ht ▸ rfl
  rw [afterRows_append, afterRows_append, afterRows_append, afterRows_append, look, afterRows_picks,
    afterRows_slots (picked.commit none) (picked.look looked), ← mixed, afterRows_monitors made,
    afterRows_turns (made.of_slots (monitors_slots made)) (monitored.look ((StaysDone.mixed t).look looked)), ← sent, ht]

/-! ### What a boundary leaves due -/

/-- The works of the slots at a boundary just opened. -/
theorem openBoundary_transition (s : State) (i : SlotIdx) : s.openBoundary.slots[i].due.transition = true := by
  rw [openBoundary, armWorks_slot]
  rfl

/-- R154: a processor with nothing to look at has had its turn, or does not execute. -/
theorem spent_of_looked (boundary : s.timing.atBoundary = true) (looked : s.processorReady = false) :
    s.channel.turn = false ∨ s.channel.processor ≠ .executing := by
  simpa [processorReady, boundary, or_iff_not_imp_left] using looked

theorem timeOutReports_slots (s : State) : s.timeOutReports.slots = s.slots := by
  rw [timeOutReports_eq]
  rfl

/-- R174: the timeouts of a boundary leave no report late. -/
theorem timeOutReports_punctual (s : State) : s.timeOutReports.events.Punctual := by
  rw [timeOutReports_eq]
  exact s.events.timeOutAll_punctual

/-- R164: with no soft reset to come, the row that would take one in leaves the state. -/
theorem exec_softResetTakesEffect_of_none (boundary : s.timing.atBoundary = true) (none : NoSoftReset s) :
    exec .softResetTakesEffect s = .next s := by
  have undue : s.softResetIfDue = s := by
    rw [softResetIfDue, (softResetDue_eq_false_iff boundary).mpr none, if_neg (by decide)]
  exact congrArg Host.Outcome.next undue

end State

/-! ### The works of a boundary, all taken -/

/-- The works of a boundary that no row is still to take. -/
structure BoundaryDone (t : State) : Prop where
  boundary : t.timing.atBoundary = true
  fix : t.timing.fixDue = false
  ports : ∀ p : PortIdx, t.ports[p].windowDue = false ∧ t.ports[p].silenceDue = false ∧ t.ports[p].store.pickDue = false
  slots : ∀ i : SlotIdx, t.SlotFinished i
  monitors : ∀ m : Fin 4, t.monitors[m].evalDue = false
  egress : ∀ e : PortIdx, t.egress[e].serviceDue = false ∧ t.egress[e].frameDue = false
  commit : NoCommitDue t
  look : t.processorReady = false
  reports : t.events.Punctual
  reset : NoSoftReset t

/-- The rest of a boundary all of whose contexts are to be made leaves nothing due. -/
theorem finishBoundary_done {s : State} (boundary : s.timing.atBoundary = true)
    (due : ∀ i : SlotIdx, s.slots[i].due.transition = true) : BoundaryDone s.finishBoundary := by
  obtain ⟨begun, fix, none, reset⟩ := State.begun_taken boundary
  obtain ⟨a, ha⟩ : ∃ a, a = s.begun.counted := ⟨_, rfl⟩
  obtain ⟨v, hv⟩ : ∃ v, v = a.timeOutReports.runProcessor := ⟨_, rfl⟩
  have counted : StaysDone s.begun a := ha ▸ StaysDone.counted _
  have looked : StaysDone a.timeOutReports v := hv ▸ StaysDone.runProcessor _
  have first := (counted.trans (StaysDone.timeOutReports a)).trans looked
  have waiting : ∀ i : SlotIdx, v.slots[i].due.transition = true := fun i => by
    rw [hv, runProcessor_transition, State.timeOutReports_slots, ha, State.counted_slots]
    exact State.begun_transition due i
  have mixed := StaysDone.mixed v
  have picked := v.mixed_pickDue
  have made := State.mixed_made (first.commit none)
  have finished := State.mixed_finished (first.commit none) waiting
  rw [State.finishBoundary_eq boundary, ← ha, ← hv]
  generalize v.mixed = w at mixed picked made finished ⊢
  have sent := StaysDone.sent w
  obtain ⟨slots, monitors, egress⟩ := State.sent_taken made
  generalize w.sent = t at sent slots monitors egress ⊢
  have last := mixed.trans sent
  have all := first.trans last
  have swept := ((StaysDone.timeOutReports a).trans looked).trans last
  exact {
    boundary := all.boundary.trans begun
    fix := all.fix fix
    ports := fun p =>
      have flags := ha ▸ s.begun.counted_due p
      ⟨swept.window p flags.1, swept.silence p flags.2, sent.pick p (picked p)⟩
    slots := fun i => by
      rw [State.SlotFinished, slots]
      exact finished i
    monitors := monitors
    egress := egress
    commit := all.commit none
    look := last.look (hv ▸ runProcessor_looked _)
    reports := (looked.trans last).reports a.timeOutReports_punctual
    reset := all.reset reset }

end Sys2Proof.Machine

namespace Sys2Proof.Proofs

open Machine

/-- Settles O26: the opening makes the works of every slot due, the rest takes each work in its stage (`finishBoundary_done`),
and each stage is the run of its rows (`State.afterRows_mixed_sent`). -/
theorem boundaryLeavesNothingDue : Obligations.BoundaryLeavesNothingDue := by
  refine ⟨fun s => ?_, fun s passed => congrArg _ (State.finishBoundary_of_passed passed), fun s a b boundary ha hb => ?_⟩
  · obtain ⟨t, ht⟩ : ∃ t, t = s.openBoundary.finishBoundary := ⟨_, rfl⟩
    have done : BoundaryDone t := ht ▸ finishBoundary_done rfl s.openBoundary_transition
    refine ⟨s.openBoundary, t, rfl, ht ▸ rfl, ht ▸ rfl, done.fix, done.ports, done.slots, done.monitors, done.egress,
      done.commit, State.spent_of_looked done.boundary done.look, fun r hr => ?_, done.reset.1,
      State.exec_softResetTakesEffect_of_none done.boundary done.reset⟩
    exact (EventUnit.timedOut_eq_false_iff r).mp (done.reports r hr)
  · rw [State.afterRows_begun_counted] at ha
    rw [ha, afterRows_timeouts] at hb
    obtain ⟨-, -, none, -⟩ := State.begun_taken boundary
    have none : NoCommitDue b := hb ▸ ((StaysDone.counted _).trans (StaysDone.timeOutReports _)).commit none
    have rest : exec (.boundary .rest) s = .next s.finishBoundary := rfl
    rw [rest, State.finishBoundary_eq boundary, ← hb, State.afterRows_mixed_sent none]

end Sys2Proof.Proofs
end

section
/-! PROOFS. The lists and records of STAGE_ENTRY's bytes (R65, R66, R71, R72), and the equality of mix lists (R68). -/

namespace Sys2Proof.Machine

variable {m : Message} {l : MixList} {i : SlotIdx} {r : RouteRecord}

/-! ### Terms and lists -/

theorem argTerm_eq {i : Nat} {t : Term} :
    argTerm m i = some t ↔
      argByte m i = t.source.val ∧ argByte m (i + 3) = (if t.invert then 1 else 0) ∧ argWord m (i + 1) = t.gain := by
  rw [← argFin_eq, ← argBool_eq]
  unfold argTerm
  obtain ⟨source, gain, invert⟩ := t
  split
  · next x b hx hb =>
    rw [hx, hb]
    simp only [Option.some.injEq, Term.mk.injEq]
    tauto
  · next outOfRange => exact iff_of_false (by simp) fun ⟨hx, hb, _⟩ => outOfRange _ _ hx hb

/-- R71: the terms stand one after another, four bytes each. -/
theorem argTerms_eq {n i : Nat} :
    argTerms m n i = some l ↔ l.length = n ∧ ∀ k < n, argTerm m (i + 4 * k) = l[k]? := by
  induction n generalizing i l with
  | zero => cases l <;> simp [argTerms]
  | succ n ih =>
    have first : argTerms m (n + 1) i = some l ↔
        ∃ t ts, l = t :: ts ∧ argTerm m i = some t ∧ argTerms m n (i + 4) = some ts := by
      rw [argTerms]
      cases argTerm m i <;> cases argTerms m n (i + 4) <;> simp [eq_comm]
    rw [first]
    constructor
    · rintro ⟨t, ts, rfl, head, rest⟩
      obtain ⟨length, terms⟩ := ih.mp rest
      refine ⟨by simpa using length, fun k hk => ?_⟩
      cases k with
      | zero => simpa using head
      | succ k =>
        rw [show i + 4 * (k + 1) = i + 4 + 4 * k by omega, List.getElem?_cons_succ]
        exact terms k (by omega)
    · rintro ⟨length, terms⟩
      cases l with
      | nil => simp at length
      | cons t ts =>
        refine ⟨t, ts, rfl, by simpa using terms 0 (by omega), ih.mpr ⟨by simpa using length, fun k hk => ?_⟩⟩
        rw [show i + 4 + 4 * k = i + 4 * (k + 1) by omega, ← List.getElem?_cons_succ (a := t)]
        exact terms (k + 1) (by omega)

theorem argList_eq {n i : Nat} :
    argList m n i = some l ↔ argTerms m n i = some l ∧ (l.map (·.source)).Nodup := by
  unfold argList sourcesDistinct
  split
  · next ts hts =>
    rw [hts]
    split
    · next distinct =>
      exact ⟨fun h => ⟨h, Option.some.inj h ▸ of_decide_eq_true distinct⟩, fun h => h.1⟩
    · next again =>
      exact iff_of_false (by simp) fun ⟨h, distinct⟩ => again (decide_eq_true (Option.some.inj h ▸ distinct))
  · next unread => simp [unread]

/-! ### Records -/

/-- R71, R72: the bytes of the message are those of a good STAGE_ENTRY of the record for the slot. -/
structure CarriesRecord (m : Message) (i : SlotIdx) (r : RouteRecord) : Prop where
  slot : argByte m 3 = i.val
  primaryCount : argByte m 4 = r.primary.length
  backupCount : argByte m 5 = (r.backup.getD []).length
  primaryFew : r.primary.length ≤ 4
  backupFew : (r.backup.getD []).length ≤ 4
  length : messageLength m = 11 + 4 * (r.primary.length + (r.backup.getD []).length)
  profile : argByte m 6 = r.profile.val
  protectProfile : argByte m 7 = r.protectProfile.val
  mode : argByte m 8 = if r.revertMode = .revert then 1 else 0
  wtr : argWord m 9 = r.wtr
  primary : argList m r.primary.length 11 = some r.primary
  backup : argList m (r.backup.getD []).length (11 + 4 * r.primary.length) = some (r.backup.getD [])
  present : r.backup ≠ some []

theorem argList_length {n i : Nat} (h : argList m n i = some l) : l.length = n :=
  (argTerms_eq.mp (argList_eq.mp h).1).1

theorem argRecord_eq : argRecord m = some (i, r) ↔ CarriesRecord m i r := by
  constructor
  · intro h
    unfold argRecord at h
    dsimp only at h
    split at h
    · next fits =>
      simp only [Bool.and_eq_true, decide_eq_true_eq] at fits
      obtain ⟨⟨primaryFew, backupFew⟩, length⟩ := fits
      split at h
      · next j profile protect mode primary backup slot hprofile hprotect hmode hprimary hbackup =>
        cases h
        have np := argList_length hprimary
        have nb := argList_length hbackup
        have whole : (if argByte m 5 = 0 then none else some backup).getD [] = backup := by
          split
          · next zero => exact (List.length_eq_zero_iff.mp (nb.trans zero)).symm
          · rfl
        have reverts : (if mode then RevertMode.revert else .none) = .revert ↔ mode = true := by cases mode <;> decide
        exact {
          slot := argFin_eq.mp slot
          primaryCount := np.symm
          backupCount := by rw [whole, nb]
          primaryFew := np ▸ primaryFew
          backupFew := by rw [whole, nb]; exact backupFew
          length := by rw [whole, np, nb]; exact length
          profile := argFin_eq.mp hprofile
          protectProfile := argFin_eq.mp hprotect
          mode := by simp only [reverts]; exact argBool_eq.mp hmode
          wtr := rfl
          primary := by rw [np]; exact hprimary
          backup := by rw [whole, nb, np]; exact hbackup
          present := by
            dsimp only
            split
            · exact Option.some_ne_none [] ∘ Eq.symm
            · next counted => exact fun empty => counted (nb ▸ congrArg List.length (Option.some.inj empty)) }
      · cases h
    · cases h
  · intro h
    have fits : (decide (r.primary.length ≤ 4) && decide ((r.backup.getD []).length ≤ 4) &&
        decide (messageLength m = 11 + 4 * (r.primary.length + (r.backup.getD []).length))) = true := by
      simp [h.primaryFew, h.backupFew, h.length]
    have mode : argBool m 8 = some (decide (r.revertMode = .revert)) := argBool_eq.mpr (by simpa using h.mode)
    have backup : (if (r.backup.getD []).length = 0 then none else some (r.backup.getD [])) = r.backup := by
      have present := h.present
      cases hb : r.backup with
      | none => rfl
      | some b => exact if_neg fun empty => present (hb.trans (congrArg some (List.length_eq_zero_iff.mp empty)))
    have reverts : (if decide (r.revertMode = .revert) then RevertMode.revert else .none) = r.revertMode := by
      cases r.revertMode <;> rfl
    unfold argRecord
    dsimp only
    rw [h.primaryCount, h.backupCount, if_pos fits, argFin_eq.mpr h.slot, argFin_eq.mpr h.profile,
      argFin_eq.mpr h.protectProfile, mode, h.primary, h.backup, h.wtr]
    dsimp only
    rw [backup, reverts]

/-- R66: an accepted record's lists are sound. -/
theorem CarriesRecord.sound (h : CarriesRecord m i r) : r.sound := by
  refine ⟨⟨h.primaryFew, (argList_eq.mp h.primary).2⟩, fun b hb => ?_⟩
  have hb : r.backup = some b := hb
  have few := h.backupFew
  have distinct := (argList_eq.mp h.backup).2
  rw [hb] at few distinct
  exact ⟨⟨few, distinct⟩, fun empty => h.present (hb.trans (congrArg some empty))⟩

/-! ### Records as bytes -/

theorem messageByte_append {front back : List Byte} (bytes : m.bytes = front ++ back) (k : Nat) :
    messageByte m (front.length + k) = back.getD k 0#8 := by
  rw [messageByte, bytes, List.getD_append_right _ _ _ _ (Nat.le_add_right _ k), Nat.add_sub_cancel_left]

/-- R65, R71: the bytes of a term, read back where they stand. -/
theorem argTerm_of_bytes {t : Term} {front back : List Byte} (bytes : m.bytes = front ++ (termBytes t ++ back)) :
    argTerm m front.length = some t := by
  have byte := messageByte_append bytes
  refine argTerm_eq.mpr ⟨?_, ?_, ?_⟩
  · have source : messageByte m front.length = byteOf t.source.val := byte 0
    have small := t.source.isLt
    rw [argByte, source, byteOf, BitVec.toNat_ofNat]
    omega
  · have invert : messageByte m (front.length + 3) = boolByte t.invert := byte 3
    rw [argByte, invert]
    cases t.invert <;> rfl
  · have high : messageByte m (front.length + 1) = t.gain.extractLsb' 8 8 := byte 1
    have low : messageByte m (front.length + 1 + 1) = t.gain.extractLsb' 0 8 := byte 2
    rw [argWord, high, low, word_eq_bytes]

theorem argTerms_of_bytes {front back : List Byte} (bytes : m.bytes = front ++ (l.flatMap termBytes ++ back)) :
    argTerms m l.length front.length = some l := by
  induction l generalizing front with
  | nil => rfl
  | cons t l ih =>
    rw [List.flatMap_cons, List.append_assoc] at bytes
    have rest := ih (front := front ++ termBytes t) (by rw [bytes, List.append_assoc])
    have behind : (front ++ termBytes t).length = front.length + 4 := List.length_append
    rw [behind] at rest
    rw [List.length_cons, argTerms, argTerm_of_bytes bytes, rest]

theorem byteOf_toNat {n : Nat} (h : n < 256) : (byteOf n).toNat = n := by
  rw [byteOf, BitVec.toNat_ofNat, Nat.mod_eq_of_lt h]

/-- R76: the bytes of a record in their order: its counts and fields, its primary terms and its backup terms. -/
theorem recordBytes_eq (r : RouteRecord) :
    recordBytes r =
      [byteOf r.primary.length, byteOf (r.backup.getD []).length, byteOf r.profile.val, byteOf r.protectProfile.val,
        boolByte (r.revertMode = .revert), r.wtr.extractLsb' 8 8, r.wtr.extractLsb' 0 8] ++
      (r.primary.flatMap termBytes ++ (r.backup.getD []).flatMap termBytes) := by
  rw [recordBytes, List.flatMap_append]
  rfl

/-- R71, R76: the header, a slot's index and the bytes of a record that the route table can hold. -/
theorem carriesRecord_of_bytes {code tag : Byte} (sound : r.sound)
    (bytes : m.bytes =
      [byteOf (11 + 4 * (r.primary.length + (r.backup.getD []).length)), code, tag, byteOf i.val] ++ recordBytes r) :
    CarriesRecord m i r := by
  obtain ⟨⟨primaryFew, primaryDistinct⟩, backupSound⟩ := sound
  have backupList : listSound (r.backup.getD []) ∧ r.backup ≠ some [] := by
    cases hb : r.backup with
    | none => exact ⟨⟨Nat.zero_le 4, List.nodup_nil⟩, Option.some_ne_none [] ∘ Eq.symm⟩
    | some b =>
      obtain ⟨list, nonempty⟩ := backupSound b hb
      exact ⟨list, fun empty => nonempty (Option.some.inj empty)⟩
  obtain ⟨⟨backupFew, backupDistinct⟩, present⟩ := backupList
  have slotSmall := i.isLt
  have profileSmall := r.profile.isLt
  have protectSmall := r.protectProfile.isLt
  rw [recordBytes_eq, ← List.append_assoc] at bytes
  have byte : ∀ k, messageByte m k = m.bytes.getD k 0#8 := fun _ => rfl
  rw [bytes] at byte
  have terms : argTerms m r.primary.length 11 = some r.primary := argTerms_of_bytes bytes
  have backupTerms : argTerms m (r.backup.getD []).length (11 + 4 * r.primary.length) = some (r.backup.getD []) := by
    have place : 11 + 4 * r.primary.length = 11 + (r.primary.flatMap termBytes).length := by
      rw [List.length_flatMap]
      simp [termBytes, wordBytes, Nat.mul_comm]
    rw [place]
    rw [← List.append_assoc, ← List.append_nil ((r.backup.getD []).flatMap termBytes)] at bytes
    have := argTerms_of_bytes bytes
    rwa [List.length_append] at this
  exact {
    slot := (congrArg BitVec.toNat (byte 3)).trans (byteOf_toNat (by omega))
    primaryCount := (congrArg BitVec.toNat (byte 4)).trans (byteOf_toNat (by omega))
    backupCount := (congrArg BitVec.toNat (byte 5)).trans (byteOf_toNat (by omega))
    primaryFew := primaryFew
    backupFew := backupFew
    length := (congrArg BitVec.toNat (byte 0)).trans (byteOf_toNat (by omega))
    profile := (congrArg BitVec.toNat (byte 6)).trans (byteOf_toNat (by omega))
    protectProfile := (congrArg BitVec.toNat (byte 7)).trans (byteOf_toNat (by omega))
    mode := by
      refine (congrArg BitVec.toNat (byte 8)).trans ?_
      cases r.revertMode <;> rfl
    wtr := (congrArg₂ (· ++ ·) (byte 9) (byte 10)).trans (word_eq_bytes r.wtr)
    primary := argList_eq.mpr ⟨terms, primaryDistinct⟩
    backup := argList_eq.mpr ⟨backupTerms, backupDistinct⟩
    present := present }

/-! ### STAGE_ENTRY -/

/-- R72: in an accepted list every source is a slot and every invert flag a flag, and no source stands twice. -/
theorem argList_inRange {n i : Nat} (h : argList m n i = some l) :
    (∀ k < n, argByte m (i + 4 * k) ≤ 63 ∧ argByte m (i + 4 * k + 3) ≤ 1) ∧
      ∀ j k, j < k → k < n → argByte m (i + 4 * j) ≠ argByte m (i + 4 * k) := by
  obtain ⟨read, distinct⟩ := argList_eq.mp h
  obtain ⟨length, terms⟩ := argTerms_eq.mp read
  have term : ∀ k < n, ∃ t, l[k]? = some t ∧ argByte m (i + 4 * k) = t.source.val ∧ argByte m (i + 4 * k + 3) ≤ 1 :=
    fun k hk => by
      have here := List.getElem?_eq_getElem (length.symm ▸ hk : k < l.length)
      obtain ⟨source, invert, -⟩ := argTerm_eq.mp ((terms k hk).trans here)
      exact ⟨_, here, source, by rw [invert]; split <;> decide⟩
  refine ⟨fun k hk => ?_, fun j k hjk hk same => ?_⟩
  · obtain ⟨t, -, source, invert⟩ := term k hk
    exact ⟨by have := t.source.isLt; omega, invert⟩
  · obtain ⟨t, ht, first, -⟩ := term j (hjk.trans hk)
    obtain ⟨u, hu, second, -⟩ := term k hk
    have sources : t.source = u.source := Fin.ext (first.symm.trans (same.trans second))
    have twice : (l.map (·.source))[j]? = (l.map (·.source))[k]? := by
      rw [List.getElem?_map, List.getElem?_map, ht, hu]
      exact congrArg some sources
    have inside : j < (l.map (·.source)).length := by rw [List.length_map, length]; exact hjk.trans hk
    exact hjk.ne ((List.getElem?_inj inside distinct).mp twice)

/-- R72: the arguments that a STAGE_ENTRY is refused for. -/
def StageArgumentsBad (m : Message) : Prop :=
  63 < argByte m 3 ∨ 4 < argByte m 4 ∨ 4 < argByte m 5 ∨
    messageLength m ≠ 11 + 4 * (argByte m 4 + argByte m 5) ∨ 7 < argByte m 6 ∨ 7 < argByte m 7 ∨ 1 < argByte m 8 ∨
    (∃ k < argByte m 4 + argByte m 5, 63 < argByte m (11 + 4 * k) ∨ 1 < argByte m (14 + 4 * k)) ∨
    (∃ j k, j < k ∧ (k < argByte m 4 ∨ (argByte m 4 ≤ j ∧ k < argByte m 4 + argByte m 5)) ∧
      argByte m (11 + 4 * j) = argByte m (11 + 4 * k))

theorem CarriesRecord.not_bad (h : CarriesRecord m i r) : ¬StageArgumentsBad m := by
  obtain ⟨primaryRange, primaryDistinct⟩ := argList_inRange h.primary
  obtain ⟨backupRange, backupDistinct⟩ := argList_inRange h.backup
  have place : ∀ k, r.primary.length ≤ k →
      11 + 4 * r.primary.length + 4 * (k - r.primary.length) = 11 + 4 * k := fun k hk => by omega
  have slotSmall := i.isLt
  have profileSmall := r.profile.isLt
  have protectSmall := r.protectProfile.isLt
  have modeSmall : argByte m 8 ≤ 1 := by rw [h.mode]; split <;> decide
  unfold StageArgumentsBad
  rw [h.slot, h.profile, h.protectProfile, h.primaryCount, h.backupCount, h.length]
  rintro (bad | bad | bad | bad | bad | bad | bad | ⟨k, hk, bad⟩ | ⟨j, k, hjk, hk, same⟩)
  · omega
  · exact absurd h.primaryFew (Nat.not_le.mpr bad)
  · exact absurd h.backupFew (Nat.not_le.mpr bad)
  · exact bad rfl
  · omega
  · omega
  · omega
  · have flag : 14 + 4 * k = 11 + 4 * k + 3 := by omega
    rw [flag] at bad
    have range : argByte m (11 + 4 * k) ≤ 63 ∧ argByte m (11 + 4 * k + 3) ≤ 1 := by
      rcases Nat.lt_or_ge k r.primary.length with inPrimary | inBackup
      · exact primaryRange k inPrimary
      · exact place k inBackup ▸ backupRange (k - r.primary.length) (by omega)
    omega
  · rcases hk with inPrimary | ⟨hj, inBackup⟩
    · exact primaryDistinct j k hjk inPrimary same
    · refine backupDistinct (j - r.primary.length) (k - r.primary.length) (by omega) (by omega) ?_
      rwa [place j hj, place k (by omega)]

/-- R72: a message with a bad argument carries no record. -/
theorem argRecord_eq_none (bad : StageArgumentsBad m) : argRecord m = none := by
  cases h : argRecord m with
  | none => rfl
  | some x => exact absurd bad (argRecord_eq.mp h).not_bad

/-- R80, R89: a slot of a lane that a pending commit has frozen. -/
theorem inMask_frozenLanes {s : State} :
    State.inMask s.frozenLanes i = true ↔ ∃ c ∈ s.pendingCommit, c.mask.getLsbD (i.val / 16) = true := by
  unfold State.frozenLanes
  cases s.pendingCommit <;> simp [State.inMask, laneOf]

end Sys2Proof.Machine

namespace Sys2Proof.Proofs
open Machine

/-- Settles O12: the fields and the two lists of the record are read back where their bytes stand. -/
theorem stageEntryReadsARecordBack : Obligations.StageEntryReadsARecordBack :=
  fun _ _ _ _ sound => argRecord_eq.mpr (carriesRecord_of_bytes sound rfl)

/-- Settles O13: the row is its owning rule on the state in which the processor has taken the command; the rule refuses a
message that carries no record, and a record for a frozen lane. -/
theorem stageEntryWritesOrRefuses : Obligations.StageEntryWritesOrRefuses := by
  intro s older newer m turn control code
  have row : exec (.stageEntry m) s = .next ((stageEntryRule m (s.taken older newer)).deliver m) :=
    congrArg Host.Outcome.next (executeCommand_of_control turn code control _ _)
  rw [row]
  refine ⟨fun i r record free => ?_, fun i r c record pending frozen => ?_, fun bad => ?_⟩
  · have unheld : ¬State.inMask (s.taken older newer).frozenLanes i = true := fun frozen => by
      obtain ⟨c, hc, masked⟩ := inMask_frozenLanes.mp frozen
      exact Bool.noConfusion ((free c hc).symm.trans masked)
    rw [stageEntryRule, record]
    dsimp only
    rw [if_neg unheld, deliver_answer _ (by exact turn.room)]
    rfl
  · have held : State.inMask (s.taken older newer).frozenLanes i = true := inMask_frozenLanes.mpr ⟨c, pending, frozen⟩
    rw [stageEntryRule, record]
    dsimp only
    rw [if_pos held, deliver_answer _ (by exact turn.room)]
    rfl
  · rw [stageEntryRule, argRecord_eq_none bad, deliver_answer _ (by exact turn.room)]
    rfl

/-- Settles O31: lists of distinct sources hold no term twice, so one that holds every term of another of its length is a
rearrangement of it. -/
theorem equalListsHoldTheSameTerms : Obligations.EqualListsHoldTheSameTerms := by
  intro a b ⟨_, ha⟩ ⟨_, hb⟩
  have ha := List.Nodup.of_map _ ha
  have hb := List.Nodup.of_map _ hb
  have test : listsEqual a b = true ↔ a.length = b.length ∧ a ⊆ b := by
    simp [listsEqual, List.subset_def]
  rw [test, ← List.perm_ext_iff_of_nodup ha hb]
  refine ⟨fun ⟨length, within⟩ => ?_, fun same => ⟨same.length_eq, same.subset⟩⟩
  exact (List.subperm_of_subset ha within).perm_of_length_le length.ge

end Sys2Proof.Proofs
end

section
/-! PROOFS. The law of the route table (R66, R70): the operations that write an entry keep it, and every other operation a step
is made of leaves the table alone. -/

namespace Sys2Proof.Machine

/-! ### What leaves the route table alone -/

/-- P speaks of the route table alone, and each operation that writes the table keeps it. -/
structure KeptByRoutes (P : State → Prop) : Prop where
  congr : ∀ {s t : State}, P s → t.routes = s.routes → P t
  afterReset : ∀ cause control rows, P ((State.afterReset cause control).withPending rows)
  commit : ∀ s c, P s → P (s.takeCommit c)
  stage : ∀ s m i r, argRecord m = some (i, r) → P s → P (s.stageEntry i r)
  copyActive : ∀ s mask, P s → P (s.copyActive mask)

namespace KeptByRoutes

variable {P : State → Prop} (k : KeptByRoutes P) {s : State} {p : PortIdx}
include k

theorem service (p : PortIdx) : KeptByService P p where
  buffer _ _ h := k.congr h rfl
  error _ _ h := k.congr h rfl
  queued _ _ h := k.congr h rfl
  placed _ _ h := k.congr h rfl

theorem failQualification (detail : Word16) (h : P s) : P (s.failQualification p detail) := by
  obtain ⟨f, events, hw⟩ := s.failQualification_writes p detail
  rw [hw]
  exact k.congr h rfl

theorem storeArrival (r : FrameRecord) (h : P s) : P (s.storeArrival p r) := by
  obtain ⟨f, events, hw⟩ := (s.updatePort p fun x => x.record s.timing.tick r.sequence).appendFrame_writes p r
  rw [State.storeArrival, hw]
  exact k.congr h rfl

theorem portArrival (r : FrameRecord) (reached : Bool) (h : P s) : P (s.portArrival p r reached) := by
  have qualified : P (if reached then s.updatePort p fun x => x.enterQualify s.timing.tick r.sequence else s) := by
    split
    · exact k.congr h rfl
    · exact h
  unfold State.portArrival
  split
  · exact qualified
  · exact qualified
  · unfold State.qualifyArrival
    dsimp only
    split
    · exact k.failQualification _ (k.congr h rfl)
    · exact k.congr h rfl
  · unfold State.lockIfPrimed
    split
    · exact k.congr (k.storeArrival r h) rfl
    · exact k.storeArrival r h
  · exact k.storeArrival r h
  · exact h

theorem takeArrival (f : LaneFrame) (reached : Bool) (h : P s) : P (s.takeArrival p f reached) := by
  refine (k.service p).takeFragment _ _ (k.portArrival _ _ ?_)
  rw [State.checkSequence_eq]
  exact k.congr h rfl

theorem examineMissing (h : P s) : P (s.examineMissing p) := by
  unfold State.examineMissing
  split
  · exact k.congr h rfl
  · have misaligned : P (s.updatePort p fun _ => s.ports[p].misaligned) := k.congr h rfl
    rw [State.loseAlignment_eq]
    split
    · exact k.failQualification _ misaligned
    all_goals exact k.congr misaligned rfl

theorem fixTiming (h : P s) : P s.fixTiming := by
  obtain ⟨timing, events, hw⟩ := s.fixTiming_writes
  rw [hw]
  exact k.congr h rfl

/-- Every step is made of these and of operations that leave the route table alone. -/
theorem blocks : KeptByBlocks P where
  queue _ _ h := k.congr h rfl
  afterReset := k.afterReset
  softReset s h := by
    have values : P (s.softResetValues.raise .resetDone 0 ResetCause.soft.code).armWorks := k.congr h rfl
    exact k.fixTiming values
  passTicks _ _ h := k.congr h rfl
  beginBoundary _ h := k.congr h rfl
  timing _ h := k.fixTiming h
  commit s c _ h := k.commit s c h
  window s p h := by
    obtain ⟨f, events, hw⟩ := s.takeWindow_writes p
    rw [hw]
    exact k.congr h rfl
  loseSource _ _ _ h := k.congr h rfl
  silence s p h := by
    obtain ⟨f, events, hw⟩ := s.takeSilence_writes p
    rw [hw]
    exact k.congr h rfl
  sent s e h := by
    obtain ⟨f, processor, events, hw⟩ := s.completeSending_writes e
    rw [hw]
    exact k.congr h rfl
  reportTimeout _ _ h := k.congr h rfl
  pick s p h := by
    obtain ⟨f, events, hw⟩ := s.pickFrame_writes p
    rw [hw]
    exact k.congr h rfl
  settle s i h := by
    obtain ⟨failed, events, hw⟩ := s.checkSettle_writes i
    rw [hw]
    exact k.congr h rfl
  notice s i h := by
    rw [s.takeNotice_writes i]
    exact k.congr h rfl
  evaluate s i h := by
    obtain ⟨f, new, events, hw⟩ := s.evaluateSlot_evaluates i
    rw [hw]
    exact k.congr h rfl
  makeContext s i h := by
    obtain ⟨f, entered, events, hw⟩ := s.makeContext_writes i
    rw [hw]
    exact k.congr h rfl
  mixSlot s i h := by
    obtain ⟨meters, output, events, hw⟩ := s.mixSlot_writes i
    rw [hw]
    exact k.congr h rfl
  due _ _ _ _ h := k.congr h rfl
  monitor s m h := by
    obtain ⟨f, events, hw⟩ := s.evaluateMonitor_writes m
    rw [hw]
    exact k.congr h rfl
  pickMessage s e _ h := by
    obtain ⟨f, events, hw⟩ := s.pickMessage_writes e
    rw [hw]
    exact k.congr h rfl
  serve _ _ h := k.congr h rfl
  pass _ _ h := k.congr h rfl
  sendFrame _ _ h := k.congr h rfl
  candidate s p n f _ h := by
    unfold State.examineCandidate
    split <;> exact k.congr h rfl
  confirming s p f _ h := by
    unfold State.examineConfirming
    split
    · split
      · exact k.congr h rfl
      · exact k.takeArrival f true (k.congr h rfl)
    · exact k.congr h rfl
  arrival _ _ f _ _ h := k.takeArrival f _ (k.congr h rfl)
  crcError _ _ _ h := k.congr h rfl
  missing _ _ _ h := k.examineMissing h
  taken _ _ _ _ _ h := k.congr h rfl
  endTurn _ h := k.congr h rfl
  respond _ _ _ _ _ h := k.congr h rfl
  halt _ h := k.congr h rfl
  control s p _ _ h := by
    unfold moveControl
    split
    · exact h
    · exact k.congr h rfl
  enableEgress s e h := by
    unfold enableEgress
    split
    · exact h
    · exact k.congr h rfl
  disableEgress s e _ h := by
    unfold disableEgress
    split
    · obtain ⟨f, processor, events, sent⟩ := s.completeSending_writes e
      obtain ⟨events', abandoned⟩ := (s.completeSending e).abandonSending_writes e
      rw [abandoned, sent]
      exact k.congr h rfl
    · exact h
  configurePort s p enable x _ h := by
    rw [configurePort_eq]
    exact k.congr h rfl
  restartPort s p h := by
    rw [restartPort_eq]
    exact k.congr h rfl
  clearCounters s p clear h := by
    cases clear <;> exact k.congr h rfl
  source _ _ h := k.congr h rfl
  stage := k.stage
  copyActive := k.copyActive
  pendingCommit _ _ h := k.congr h rfl
  profile s i x h := by
    rw [s.writeProfile_writes i x]
    exact k.congr h rfl
  clearClip s i clear h := by
    cases clear <;> exact k.congr h rfl
  clearMeters s e clear h := by
    unfold clearMeters
    split
    · exact k.congr h rfl
    · exact h
  switch s i select _ h := by
    unfold switchSlot
    split
    · exact h
    · exact k.congr h rfl
  monitorConfig _ _ _ h := k.congr h rfl
  eventConfig _ _ _ _ h := k.congr h rfl
  acknowledge _ _ h := k.congr h rfl
  clearAlarms _ _ h := k.congr h rfl
  pinMask _ _ h := k.congr h rfl

end KeptByRoutes

/-! ### What each write of the route table keeps -/

/-- R66, R70: the law of one entry. -/
def RouteEntry.sound (e : RouteEntry) : Prop :=
  e.active.sound ∧ e.staging.sound ∧ (e.dirty = false → e.staging = e.active)

/-- R73: a new staging record makes the entry dirty. -/
theorem RouteEntry.sound_stage {e : RouteEntry} {r : RouteRecord} (h : e.sound) (record : r.sound) :
    RouteEntry.sound { e with staging := r, dirty := true } := by
  obtain ⟨active, -, -⟩ := h
  exact ⟨active, record, Bool.noConfusion⟩

/-- R85: a commit leaves both records the staging record. -/
theorem RouteEntry.sound_activate {e : RouteEntry} (h : e.sound) :
    RouteEntry.sound { e with active := e.staging, dirty := false } := by
  obtain ⟨-, staging, -⟩ := h
  exact ⟨staging, staging, fun _ => rfl⟩

/-- R75: a withdrawal leaves both records the active record. -/
theorem RouteEntry.sound_withdraw {e : RouteEntry} (h : e.sound) :
    RouteEntry.sound { e with staging := e.active, dirty := false } := by
  obtain ⟨active, -, -⟩ := h
  exact ⟨active, active, fun _ => rfl⟩

theorem routesSound_iff {s : State} : RoutesSound s ↔ ∀ i : SlotIdx, s.routes[i].sound := Iff.rfl

theorem RoutesSound.kept : KeptByRoutes RoutesSound where
  congr h routes := by
    unfold RoutesSound
    rw [routes]
    exact h
  afterReset := routesSound_afterReset
  commit s c h := routesSound_iff.mpr fun i => by
    obtain ⟨slots, routes, hw, each⟩ := s.takeCommit_writes c
    have route : (s.takeCommit c).routes[i] = routes[i] := by rw [hw]
    rw [route, (each i).2]
    split
    · exact RouteEntry.sound_activate (h i)
    · exact h i
  stage s m j r record h := routesSound_iff.mpr fun i => by
    by_cases hij : j = i
    · subst hij
      have route : (s.stageEntry j r).routes[j] = { s.routes[j] with staging := r, dirty := true } :=
        updateAt_get_self s.routes j _
      rw [route]
      exact RouteEntry.sound_stage (h j) (argRecord_eq.mp record).sound
    · have route : (s.stageEntry j r).routes[i] = s.routes[i] := updateAt_get_ne s.routes _ hij
      rw [route]
      exact h i
  copyActive s mask h := routesSound_iff.mpr fun i => by
    have route : (s.copyActive mask).routes[i] =
        if State.inMask mask i then { s.routes[i] with staging := s.routes[i].active, dirty := false } else s.routes[i] := by
      simp [State.copyActive]
    rw [route]
    split
    · exact RouteEntry.sound_withdraw (h i)
    · exact h i

end Sys2Proof.Machine

namespace Sys2Proof.Proofs
open Machine

/-- Settles O54: an entry is written by STAGE_ENTRY, whose record has passed its checks, by COPY_ACTIVE and by a commit, which
leave its two records equal; every other operation of a step leaves the route table alone. -/
theorem stepsKeepRoutesSound : Obligations.StepsKeepRoutesSound :=
  fun _ _ sound taken => RoutesSound.kept.blocks.step_keeps sound taken

end Sys2Proof.Proofs
end

section
/-! PROOFS. COPY_ACTIVE (R75, R89): the entries of a lane mask, and which of them wait. -/

namespace Sys2Proof.Machine

variable {m : Message} {s : State} {mask : BitVec 4}

namespace State

theorem mem_dirtyIn {i : SlotIdx} : i ∈ s.dirtyIn mask ↔ inMask mask i = true ∧ s.routes[i].dirty = true := by
  rw [dirtyIn, List.mem_filter, Bool.and_eq_true]
  exact and_iff_right (List.mem_finRange i)

/-- R75, R84: the count of the dirty entries of the masked lanes. -/
theorem dirtyIn_length :
    (s.dirtyIn mask).length = (List.finRange 64).countP fun i : SlotIdx => mask.getLsbD (i.val / 16) && s.routes[i].dirty :=
  List.countP_eq_length_filter.symm

theorem inMask_and (other : BitVec 4) (i : SlotIdx) : inMask (mask &&& other) i = (inMask mask i && inMask other i) :=
  BitVec.getLsbD_and

/-- R75, R89: no dirty entry of the mask lies in a lane of the pending commit. -/
theorem dirtyIn_frozen_isEmpty :
    (s.dirtyIn (mask &&& s.frozenLanes)).isEmpty = true ↔
      ∀ c ∈ s.pendingCommit, ∀ i : SlotIdx, mask.getLsbD (i.val / 16) = true → c.mask.getLsbD (i.val / 16) = true →
        s.routes[i].dirty = false := by
  rw [List.isEmpty_iff, List.eq_nil_iff_forall_not_mem]
  simp only [mem_dirtyIn, inMask_and, Bool.and_eq_true, inMask_frozenLanes]
  constructor
  · intro clean c hc i masked frozen
    exact Bool.eq_false_iff.mpr fun dirty => clean i ⟨⟨masked, c, hc, frozen⟩, dirty⟩
  · rintro clean i ⟨⟨masked, c, hc, frozen⟩, dirty⟩
    exact Bool.noConfusion ((clean c hc i masked frozen).symm.trans dirty)

/-- R75: all that a withdrawal writes. -/
theorem copyActive_eq (s : State) (mask : BitVec 4) :
    s.copyActive mask =
      { s with
        routes := Vector.ofFn fun i : SlotIdx =>
          if mask.getLsbD (i.val / 16) then { s.routes[i] with staging := s.routes[i].active, dirty := false }
          else s.routes[i] } := rfl

end State

/-- R75, R81: a lane mask in range is read back from its byte. -/
theorem argMask_eq {i : Nat} (byte : argByte m i = mask.toNat) (nonzero : mask ≠ 0#4) : argMask m i = some mask := by
  have positive : mask.toNat ≠ 0 := fun zero => nonzero (BitVec.eq_of_toNat_eq zero)
  have small := mask.isLt
  have inRange : (decide (1 ≤ argByte m i) && decide (argByte m i ≤ 15)) = true := by
    rw [byte, Bool.and_eq_true, decide_eq_true_eq, decide_eq_true_eq]
    omega
  rw [argMask, if_pos inRange, byte, BitVec.ofNat_toNat, BitVec.setWidth_eq]

theorem copyActiveRule_eq (length : messageLength m = 4) (argument : argMask m 3 = some mask) :
    copyActiveRule m s =
      if (s.dirtyIn (mask &&& s.frozenLanes)).isEmpty then
        okWith (s.copyActive mask) [byteOf (s.dirtyIn mask).length]
      else answer s .pending := by
  rw [copyActiveRule, argument]
  exact if_neg (not_not.mpr length)

end Sys2Proof.Machine

namespace Sys2Proof.Proofs
open Machine

/-- Settles O14: the row is its owning rule on the state in which the processor has taken the command, and the rule goes by the
dirty entries of the mask that lie in a lane of the pending commit. -/
theorem copyActiveWithdrawsEdits : Obligations.CopyActiveWithdrawsEdits := by
  intro s older newer m mask turn control code length byte nonzero
  have row : exec (.copyActive m) s = .next ((copyActiveRule m (s.taken older newer)).deliver m) :=
    congrArg Host.Outcome.next (executeCommand_of_control turn code control _ _)
  rw [row, copyActiveRule_eq length (argMask_eq byte nonzero)]
  refine ⟨fun clean => ?_, fun c i pending masked frozen dirty => ?_⟩
  · have free : ((s.taken older newer).dirtyIn (mask &&& (s.taken older newer).frozenLanes)).isEmpty = true :=
      State.dirtyIn_frozen_isEmpty.mpr clean
    rw [if_pos free, State.copyActive_eq, deliver_okWith _ (by exact turn.room), State.dirtyIn_length]
    rfl
  · have held : ¬((s.taken older newer).dirtyIn (mask &&& (s.taken older newer).frozenLanes)).isEmpty = true := fun free =>
      Bool.noConfusion ((State.dirtyIn_frozen_isEmpty.mp free c pending i masked frozen).symm.trans dirty)
    rw [if_neg held, deliver_answer _ (by exact turn.room)]
    rfl

end Sys2Proof.Proofs
end

section
/-! PROOFS. The mixer (R130 to R136): the sample of a slot and its metering, and the picks it rests on. -/

namespace Sys2Proof.Machine

/-! ### Folding an operation whose first steps change nothing -/

/-- Where the indices before `p` change nothing, before the operation of `p` or after it, that operation can be done first. -/
theorem forEach_first {σ : Type} {n : Nat} {f : Fin n → σ → σ} {p : Fin n} {s : σ} (before : ∀ q < p, f q s = s)
    (after : ∀ q ≤ p, f q (f p s) = f p s) : forEach n f (f p s) = forEach n f s := by
  obtain ⟨lower, upper, order⟩ := List.append_of_mem (List.mem_finRange p)
  have sorted := List.pairwise_lt_finRange n
  rw [order, List.pairwise_append] at sorted
  obtain ⟨-, -, apart⟩ := sorted
  have below : ∀ q ∈ lower, q < p := fun q hq => apart q hq p List.mem_cons_self
  have still : ∀ u, (∀ q < p, f q u = u) → lower.foldl (fun u q => f q u) u = u := fun u fixed =>
    List.foldlRecOn (motive := (· = u)) lower _ rfl fun v hv q hq => by
      subst hv
      exact fixed q (below q hq)
  unfold forEach
  rw [order, List.foldl_append, List.foldl_append, still s before, still _ fun q hq => after q hq.le, List.foldl_cons,
    List.foldl_cons, after p le_rfl]

namespace State

variable {s : State} {i : SlotIdx} {l : MixList}

/-! ### The picks a list rests on -/

theorem ensurePick_of_taken {p : PortIdx} (taken : s.ports[p].store.pickDue = false) : s.ensurePick p = s := by
  rw [ensurePick, taken, if_neg Bool.noConfusion]

theorem ensurePick_port {p q : PortIdx} (other : p ≠ q) : (s.ensurePick p).ports[q] = s.ports[q] := by
  unfold ensurePick
  split
  · obtain ⟨f, events, hw⟩ := s.pickFrame_writes p
    rw [hw]
    exact updateAt_get_ne _ _ other
  · rfl

theorem reads_iff {p : PortIdx} : reads l p = true ↔ ∃ t ∈ l, laneOf t.source = p := by
  simp [reads]

/-- R130: the pick of one port, where the list reads its store. -/
def pickRead (l : MixList) (p : PortIdx) (s : State) : State := if reads l p then s.ensurePick p else s

theorem ensurePicks_eq (s : State) (l : MixList) : s.ensurePicks l = forEach 4 (pickRead l) s := rfl

theorem pickRead_of_taken {p : PortIdx} (taken : reads l p = true → s.ports[p].store.pickDue = false) :
    pickRead l p s = s := by
  unfold pickRead
  split
  · next read => exact ensurePick_of_taken (taken read)
  · rfl

theorem ensurePicks_of_taken (taken : ∀ t ∈ l, s.ports[laneOf t.source].store.pickDue = false) : s.ensurePicks l = s :=
  forEach_keeps (P := (· = s)) (fun p u hu => by
    subst hu
    refine pickRead_of_taken fun read => ?_
    obtain ⟨t, ht, rfl⟩ := reads_iff.mp read
    exact taken t ht) rfl

/-- R130, R66: the lowest due pick of a list is the first that is taken. -/
theorem ensurePicks_first {p : PortIdx} (read : reads l p = true)
    (lowest : ∀ t ∈ l, laneOf t.source < p → s.ports[laneOf t.source].store.pickDue = false) :
    (s.ensurePick p).ensurePicks l = s.ensurePicks l := by
  have own : pickRead l p s = s.ensurePick p := if_pos read
  have lower : ∀ q < p, reads l q = true → s.ports[q].store.pickDue = false := fun q hq hr => by
    obtain ⟨t, ht, rfl⟩ := reads_iff.mp hr
    exact lowest t ht hq
  rw [ensurePicks_eq, ensurePicks_eq, ← own]
  refine forEach_first (fun q hq => pickRead_of_taken (lower q hq)) fun q hq => pickRead_of_taken fun hr => ?_
  rw [own]
  rcases hq.eq_or_lt with rfl | hq
  · exact ensurePick_pickDue s q
  · rw [ensurePick_port hq.ne']
    exact lower q hq hr

/-! ### The sample and its metering -/

/-- R130 to R136: what the metering of a slot writes. -/
theorem mixSlot_eq (s : State) (i : SlotIdx) :
    s.mixSlot i =
      { s with
        slots := updateAt s.slots i fun x =>
          { x with
            output := s.slotOutput i, meters := x.meters.take (s.slotClips i) (magnitude (s.slotOutput i).sample) }
        events :=
          if s.slotClips i then
            if s.slots[i].meters.clipFlag then s.events.latch alarmClip
            else (s.events.latch alarmClip).raise s.timing.periodCounter .clip i 0#16
          else s.events } := by
  unfold mixSlot
  dsimp only
  split
  · split <;> rfl
  · rfl

/-- R97, R137: the mixer's work for a slot whose context is made. -/
theorem exec_mix (due : s.slots[i].due = ⟨false, false, false, false, true⟩) :
    exec (.boundary (.only (.mix i))) s = .next (s.mixPicked i) := by
  have made : s.slots[i].due.transition = false := by rw [due]
  have toMix : s.slots[i].due.mix = true := by rw [due]
  refine congrArg Host.Outcome.next ?_
  rw [takeWork, switchFirst, made, if_neg Bool.noConfusion, ensureMix, if_pos toMix, ensureStep_of_taken made]

end State

/-- R132: saturation, by the side on which the value leaves the range. -/
theorem saturate_eq {value sample : Int} (above : 8388607 < value → sample = 8388607)
    (below : value < -8388608 → sample = -8388608) (within : -8388608 ≤ value → value ≤ 8388607 → sample = value) :
    saturate value = sample := by
  unfold saturate sampleMax sampleMin
  split
  · next h => exact (above h).symm
  · split
    · next h => exact (below h).symm
    · exact (within (by omega) (by omega)).symm

/-- R132, R135: a period is clipped where saturation changes the value. -/
theorem clips_eq (value : Int) : clips value = !decide (value = saturate value) := by
  unfold clips saturate sampleMax sampleMin
  split
  · next high => rw [decide_eq_true high, decide_eq_false (by omega : ¬value = 8388607)]; rfl
  · next notHigh =>
    rw [decide_eq_false notHigh]
    split
    · next low => rw [decide_eq_true low, decide_eq_false (by omega : ¬value = -8388608)]; rfl
    · next notLow => rw [decide_eq_false notLow, decide_eq_true rfl]; rfl

/-- R135, R136: the meters after a period, by whether its value was a sample. -/
theorem Meters.take_eq (x : Meters) (value sample : Int) (mag : Nat) :
    x.take (!decide (value = sample)) mag =
      { clipCounter :=
          if value = sample ∨ x.clipCounter = 0xFFFF#16 then x.clipCounter else x.clipCounter + 1#16
        clipFlag := if value = sample then x.clipFlag else true
        peak := max x.peak mag } := by
  unfold Meters.take saturatingInc
  by_cases same : value = sample
  · simp [same]
  · simp [same]

namespace State

variable {s : State} {i : SlotIdx} {l : MixList}

/-- R130, R145: what a term reads, by the mark of a silenced frame and the slot-valid map. -/
theorem readSource_eq (s : State) (j : SlotIdx) :
    s.readSource j =
      if s.ports[laneOf j].store.hushed = false ∧ s.ports[laneOf j].store.assigned.valid.getLsbD (j.val % 16) = true then
        s.ports[laneOf j].store.assigned.samples[slotInLane j].toInt
      else 0 := by
  cases hushed : s.ports[laneOf j].store.hushed with
  | true =>
    rw [readSource_silent s j (by rw [ElasticStore.heard, hushed]; rfl), if_neg fun h => Bool.noConfusion h.1]
  | false =>
    have heard : s.ports[laneOf j].store.heard = s.ports[laneOf j].store.assigned := by
      rw [ElasticStore.heard, hushed]
      rfl
    unfold readSource
    dsimp only
    rw [heard]
    exact if_congr (and_iff_right rfl).symm rfl rfl

/-- R131: the value of a period, from what its terms read. -/
theorem mixValue_eq {read : Term → Int} (reads : ∀ t, read t = s.readSource t.source) (l : MixList) (level : Nat) :
    s.mixValue l level =
      (l.map fun t => (if t.invert then -1 else 1) * (read t * t.gain.toNat)).sum * level / (16384 * 4096) := by
  have product : ∀ t : Term, termProduct t (s.readSource t.source) =
      (if t.invert then -1 else 1) * (read t * t.gain.toNat) := fun t => by
    rw [termProduct, reads]
    cases t.invert <;> simp
  rw [mixValue, mixSum, List.map_congr_left fun t _ => product t]
  rfl

/-- R130 to R136: the mixer's work for a slot whose picks are taken. -/
theorem mixPicked_eq (taken : ∀ t ∈ s.slots[i].context.sounding, s.ports[laneOf t.source].store.pickDue = false) :
    s.mixPicked i =
      { s with
        slots := updateAt s.slots i fun x =>
          { x with
            output := s.slotOutput i, meters := x.meters.take (s.slotClips i) (magnitude (s.slotOutput i).sample)
            due := { x.due with mix := false } }
        events :=
          if s.slotClips i then
            if s.slots[i].meters.clipFlag then s.events.latch alarmClip
            else (s.events.latch alarmClip).raise s.timing.periodCounter .clip i 0#16
          else s.events } := by
  rw [mixPicked, ensurePicks_of_taken taken, mixSlot_eq, updateDue, updateSlot]
  dsimp only
  rw [updateAt_updateAt]

/-- R130, R66: the mixer's work takes the lowest due pick of the sounding list first. -/
theorem mixPicked_first {p : PortIdx} (read : ∃ t ∈ s.slots[i].context.sounding, laneOf t.source = p)
    (lowest : ∀ t ∈ s.slots[i].context.sounding, laneOf t.source < p → s.ports[laneOf t.source].store.pickDue = false) :
    (s.ensurePick p).mixPicked i = s.mixPicked i := by
  rw [mixPicked, mixPicked, ensurePick_slots, ensurePicks_first (reads_iff.mpr read) lowest]

/-! ### The order of the terms -/

/-- A slot's sounding list given as `l`. -/
def withSounding (s : State) (i : SlotIdx) (l : MixList) : State :=
  { s with slots := updateAt s.slots i fun x => { x with context := { x.context with sounding := l } } }

theorem withSounding_slot : (s.withSounding i l).slots[i] =
    { s.slots[i] with context := { s.slots[i].context with sounding := l } } :=
  updateAt_get_self _ _ _

/-- The picks neither read nor write a slot. -/
theorem ensurePick_withSlots (s : State) (slots : Vector Slot 64) (p : PortIdx) :
    ensurePick { s with slots := slots } p = { s.ensurePick p with slots := slots } := by
  have picked : pickFrame { s with slots := slots } p = { s.pickFrame p with slots := slots } := by
    cases again : s.ports[p].store.wouldRepeat s.ports[p].isLocked with
    | true => rw [pickFrame_of_repeat again, pickFrame_of_repeat (by exact again), reportSlip_eq, reportSlip_eq]; rfl
    | false => rw [pickFrame_of_fresh again, pickFrame_of_fresh (by exact again)]; rfl
  unfold ensurePick
  dsimp only
  split
  · exact picked
  · rfl

theorem pickRead_withSlots (s : State) (slots : Vector Slot 64) (p : PortIdx) :
    pickRead l p { s with slots := slots } = { pickRead l p s with slots := slots } := by
  unfold pickRead
  split
  · exact ensurePick_withSlots s slots p
  · rfl

theorem ensurePicks_withSlots (s : State) (slots : Vector Slot 64) :
    ensurePicks { s with slots := slots } l = { s.ensurePicks l with slots := slots } := by
  rw [ensurePicks_eq, ensurePicks_eq]
  unfold forEach
  induction List.finRange 4 generalizing s with
  | nil => rfl
  | cons p rest ih => rw [List.foldl_cons, List.foldl_cons, pickRead_withSlots, ih]

theorem ensurePicks_withSounding : (s.withSounding i l).ensurePicks l = (s.ensurePicks l).withSounding i l := by
  rw [withSounding, ensurePicks_withSlots, withSounding, ensurePicks_slots]

/-- R66, R131: neither the sum of the products nor the slot-valid flag goes by the order of the terms. -/
theorem slotOutput_withSounding (perm : l.Perm s.slots[i].context.sounding) :
    (s.withSounding i l).slotOutput i = s.slotOutput i ∧ (s.withSounding i l).slotClips i = s.slotClips i := by
  have value : ∀ level, (s.withSounding i l).mixValue l level = s.mixValue s.slots[i].context.sounding level := fun level =>
    congrArg (fun sum : Int => sum * level / Config.mixDivisor) (perm.map _).sum_eq
  have valid : slotValid { s.slots[i].context with sounding := l } = slotValid s.slots[i].context := by
    rw [slotValid, slotValid, perm.isEmpty_eq]
  unfold slotOutput slotClips
  rw [withSounding_slot]
  dsimp only
  rw [value, valid]
  exact ⟨rfl, rfl⟩

theorem mixSlot_withSounding (perm : l.Perm s.slots[i].context.sounding) :
    (s.withSounding i l).mixSlot i = (s.mixSlot i).withSounding i l := by
  obtain ⟨output, clips⟩ := slotOutput_withSounding perm
  have flag : (s.withSounding i l).slots[i].meters.clipFlag = s.slots[i].meters.clipFlag := by rw [withSounding_slot]
  rw [mixSlot_eq, mixSlot_eq, output, clips, flag]
  simp only [withSounding, updateAt_updateAt]

/-- R66: the mixer's work with the terms in another order. -/
theorem mixPicked_withSounding (perm : l.Perm s.slots[i].context.sounding) :
    (s.withSounding i l).mixPicked i = (s.mixPicked i).withSounding i l := by
  have picked : (s.withSounding i l).ensurePicks (s.withSounding i l).slots[i].context.sounding =
      (s.ensurePicks s.slots[i].context.sounding).withSounding i l := by
    rw [withSounding_slot, ensurePicks_withSounding, ensurePicks_perm s perm]
  have perm' : l.Perm (s.ensurePicks s.slots[i].context.sounding).slots[i].context.sounding := by
    rw [ensurePicks_slots]
    exact perm
  rw [mixPicked, mixPicked, picked, mixSlot_withSounding perm']
  simp only [withSounding, updateDue, updateSlot, updateAt_updateAt]

end State

end Sys2Proof.Machine

namespace Sys2Proof.Proofs
open Machine

/-- Settles O33: with its picks taken, the slot's work is its sample and its metering; the lowest due pick comes first, since
the picks before it change nothing; and neither picks nor sum go by the order of the terms. -/
theorem mixComputesAndMetersTheSample : Obligations.MixComputesAndMetersTheSample := by
  refine ⟨fun s i c read value sample out due hc taken hread hvalue above below within hout => ?_,
    fun s i p due named toPick lowest => ?_, fun s i l reordered due perm hreordered => ?_⟩
  · subst hc
    have mixed : s.mixValue s.slots[i].context.sounding s.slots[i].context.level = value :=
      (State.mixValue_eq (fun t => (hread t).trans (s.readSource_eq t.source).symm) _ _).trans hvalue.symm
    have saturated : saturate value = sample := saturate_eq above below within
    have output : s.slotOutput i = ⟨out, slotValid s.slots[i].context⟩ := by
      unfold State.slotOutput
      dsimp only
      rw [mixed, saturated, ← hout, BitVec.ofInt_toInt]
    have clipped : s.slotClips i = !decide (value = sample) := by
      unfold State.slotClips
      dsimp only
      rw [mixed, clips_eq, saturated]
    have mag : magnitude out = sample.natAbs := by rw [magnitude, hout]
    rw [State.exec_mix due, State.mixPicked_eq taken, output, clipped, mag]
    simp only [Meters.take_eq]
    congr 2
    · refine updateAt_congr _ _ ?_
      rw [due]
      rfl
    · by_cases same : value = sample
      · simp [same]
      · simp [same]
        rfl
  · refine ⟨s.ensurePick p, rfl, ?_⟩
    rw [State.exec_mix due, State.exec_mix (by rw [State.ensurePick_slots]; exact due), State.mixPicked_first named lowest]
  · obtain rfl : reordered = fun u => u.withSounding i l := funext hreordered
    refine ⟨s.mixPicked i, State.exec_mix due, ?_⟩
    dsimp only
    rw [← State.mixPicked_withSounding perm]
    exact State.exec_mix (by rw [State.withSounding_slot]; exact due)

end Sys2Proof.Proofs
end

section
/-! PROOFS. COMMIT and CANCEL_COMMIT (R81 to R84, R90): where a commit is accepted, and for which period. -/

namespace Sys2Proof.Machine

variable {m : Message} {s : State} {mask : BitVec 4} {scheduled : Bool}

/-- R83: a scheduled commit takes its target where that lies 1 to 32,767 periods ahead. -/
theorem effectivePeriod_scheduled (target counter : Word16) :
    effectivePeriod true target counter =
      if 1 ≤ (target - counter).toNat ∧ (target - counter).toNat ≤ 32767 then some target else none := by
  simp only [effectivePeriod, Bool.and_eq_true, decide_eq_true_eq, if_true]
  rfl

theorem effectivePeriod_near {target counter : Word16} (ahead : target ≠ counter)
    (near : (target - counter).toNat ≤ 32767) : effectivePeriod true target counter = some target := by
  have apart : 1 ≤ (target - counter).toNat := by bv_omega
  rw [effectivePeriod_scheduled, if_pos ⟨apart, near⟩]

theorem effectivePeriod_late {target counter : Word16}
    (late : target = counter ∨ 32768 ≤ (target - counter).toNat) : effectivePeriod true target counter = none := by
  have outside : ¬(1 ≤ (target - counter).toNat ∧ (target - counter).toNat ≤ 32767) := by
    rcases late with rfl | far
    · simp
    · omega
  rw [effectivePeriod_scheduled, if_neg outside]

/-- R81: a COMMIT whose arguments are in range goes by the pending commit. -/
theorem commitRule_eq (length : messageLength m = 7) (kind : argByte m 3 = if scheduled then 1 else 0)
    (lanes : argMask m 4 = some mask) :
    commitRule m s =
      if s.pendingCommit.isSome then answer s .pending
      else (effectivePeriod scheduled (argWord m 5) s.timing.periodCounter).elim (answer s .late)
        fun period => acceptCommit s mask period scheduled := by
  rw [commitRule, argBool_eq.mpr kind, lanes]
  simp only [length, ne_eq, not_true_eq_false, if_false]
  congr 1
  cases effectivePeriod scheduled (argWord m 5) s.timing.periodCounter <;> rfl

theorem commitRule_pending (length : messageLength m = 7) (kind : argByte m 3 = if scheduled then 1 else 0)
    (lanes : argMask m 4 = some mask) (pending : s.pendingCommit ≠ none) : commitRule m s = answer s .pending := by
  rw [commitRule_eq length kind lanes, if_pos (Option.isSome_iff_ne_none.mpr pending)]

theorem commitRule_accepts {period : Word16} (length : messageLength m = 7)
    (kind : argByte m 3 = if scheduled then 1 else 0) (lanes : argMask m 4 = some mask) (free : s.pendingCommit = none)
    (effective : effectivePeriod scheduled (argWord m 5) s.timing.periodCounter = some period) :
    commitRule m s = acceptCommit s mask period scheduled := by
  rw [commitRule_eq length kind lanes, free, effective]
  rfl

theorem commitRule_late (length : messageLength m = 7) (kind : argByte m 3 = if scheduled then 1 else 0)
    (lanes : argMask m 4 = some mask) (free : s.pendingCommit = none)
    (late : effectivePeriod scheduled (argWord m 5) s.timing.periodCounter = none) : commitRule m s = answer s .late := by
  rw [commitRule_eq length kind lanes, free, late]
  rfl

/-- R84: the answer to an accepted commit gives its period and the count of dirty entries, and nothing but the pending record
is written. -/
theorem deliver_acceptCommit {period : Word16} (room : s.egress[m.source].responses.length < 4) :
    (acceptCommit s mask period scheduled).deliver m =
      ({ s with
          pendingCommit := some { mask := mask, effective := period, kind := if scheduled then .scheduled else .immediate }
        } : State).answered m 0#8 (wordBytes period ++ [BitVec.ofNat 8
          ((List.finRange 64).countP fun i : SlotIdx => mask.getLsbD (i.val / 16) && s.routes[i].dirty)]) := by
  rw [acceptCommit, deliver_okWith _ (by exact room), State.dirtyIn_length]
  rfl

theorem cancelCommitRule_eq (length : messageLength m = 3) :
    cancelCommitRule m s =
      if s.pendingCommit = none then answer s .notPending else answer { s with pendingCommit := none } .ok := by
  rw [cancelCommitRule, if_neg (not_not.mpr length)]
  cases s.pendingCommit <;> rfl

end Sys2Proof.Machine

namespace Sys2Proof.Proofs
open Machine

/-- Settles O15: each row is its owning rule on the state in which the processor has taken the command; the rule of COMMIT goes
by the pending commit and then by the effective period, that of CANCEL_COMMIT by the pending commit alone. -/
theorem commitsAreAcceptedRefusedAndCancelled : Obligations.CommitsAreAcceptedRefusedAndCancelled := by
  refine ⟨fun s older newer m mask count turn control code length byte nonzero counted => ?_,
    fun s older newer m turn control code length => ?_⟩
  · have row : exec (.commit m) s = .next ((commitRule m (s.taken older newer)).deliver m) :=
      congrArg Host.Outcome.next (executeCommand_of_control turn code control _ _)
    have lanes := argMask_eq byte nonzero
    subst counted
    rw [row]
    refine ⟨fun immediate free => ?_, fun scheduled free ahead near => ?_, fun scheduled free late => ?_,
      fun kind pending => ?_⟩
    · rw [commitRule_accepts (s := s.taken older newer) (scheduled := false) length immediate lanes free
        rfl, deliver_acceptCommit (by exact turn.room)]
      rfl
    · rw [commitRule_accepts (s := s.taken older newer) (scheduled := true) length scheduled lanes free
        (effectivePeriod_near ahead near), deliver_acceptCommit (by exact turn.room)]
      rfl
    · rw [commitRule_late (s := s.taken older newer) (scheduled := true) length scheduled lanes free
        (effectivePeriod_late late), deliver_answer _ (by exact turn.room)]
      rfl
    · obtain ⟨scheduled, kind⟩ : ∃ scheduled : Bool, argByte m 3 = if scheduled then 1 else 0 := by
        rcases Nat.le_one_iff_eq_zero_or_eq_one.mp kind with zero | one
        · exact ⟨false, zero⟩
        · exact ⟨true, one⟩
      rw [commitRule_pending (s := s.taken older newer) length kind lanes pending, deliver_answer _ (by exact turn.room)]
      rfl
  · have row : exec (.cancelCommit m) s = .next ((cancelCommitRule m (s.taken older newer)).deliver m) :=
      congrArg Host.Outcome.next (executeCommand_of_control turn code control _ _)
    rw [row, cancelCommitRule_eq length, taken_pendingCommit]
    congr 1
    split
    · exact deliver_answer _ (by exact turn.room)
    · exact deliver_answer _ (by exact turn.room)

end Sys2Proof.Proofs
end

section
/-! PROOFS. A commit taking effect (R85 to R87, R118, R123, R124): the commit unit's work at the effective period, and the
protection unit's for each replaced slot. -/

namespace Sys2Proof.Machine

theorem table_eq_ofFn {α : Type} {n : Nat} {v : Vector α n} {f : Fin n → α} (h : ∀ i : Fin n, v[i] = f i) :
    v = Vector.ofFn f :=
  table_ext fun i => (h i).trans (Vector.getElem_ofFn i.isLt).symm

namespace EventUnit

variable (u : EventUnit) (stamp : Word16) (kind : EventKind) (subject : SlotIdx) (detail : Word16)

/-- R167, R171: an event raised takes no record out of the queue. -/
theorem queue_subset_raise : u.queue ⊆ (u.raise stamp kind subject detail).queue := by
  rcases u.raise_cases stamp kind subject detail with ⟨-, h⟩ | ⟨-, -, h⟩ | ⟨-, -, h⟩ <;> rw [h]
  · exact List.Subset.refl _
  · exact fun r old => (insertRecord_perm _ _).mem_iff.mpr (List.mem_cons_of_mem _ old)
  · exact List.Subset.refl _

/-- R171: an enabled event enters a queue with room. -/
theorem newRecord_mem_raise (enabled : u.config[kind.index].enabled = true) (room : u.queue.length < 32) :
    u.newRecord stamp kind subject detail ∈ (u.raise stamp kind subject detail).queue := by
  rcases u.raise_cases stamp kind subject detail with ⟨disabled, -⟩ | ⟨-, -, h⟩ | ⟨-, full, -⟩
  · exact Bool.noConfusion (enabled.symm.trans disabled)
  · rw [h]
    exact (insertRecord_perm _ _).mem_iff.mpr List.mem_cons_self
  · omega

end EventUnit

namespace State

variable {s t : State} {i : SlotIdx}

/-! ### The notice and the evaluation of one slot -/

/-- R118, R122: the record has a backup list, and neither list is available. -/
def bothLost (s : State) (r : RouteRecord) : Bool := !s.available r.primary && r.backup.any fun b => !s.available b

/-- R123: the list that a notice selects. -/
theorem noticeSelect_eq (s : State) (r : RouteRecord) :
    s.noticeSelect r = if !s.available r.primary && r.backup.any s.available then .backup else .primary := by
  unfold noticeSelect
  cases r.backup <;> simp

theorem updateProtection_of_fixed {f : Protection → Protection} (fixed : f s.slots[i].protection = s.slots[i].protection) :
    s.updateProtection i f = s := by
  unfold updateProtection updateSlot
  rw [updateAt_id _ _ (by rw [fixed])]

/-- R121: the selected list of a slot just moved is found available. -/
theorem stayAvailable_of_moved {select : ListSelect} (moved : s.slots[i].protection = Protection.moved select) :
    s.stayAvailable i = s :=
  updateProtection_of_fixed (by rw [moved]; rfl)

/-- R120: a slot whose primary list is not available does not wait to restore. -/
theorem restoreSlot_of_lost (lost : s.available s.routes[i].active.primary = false) : s.restoreSlot i = s.stayAvailable i := by
  rw [restoreSlot, if_neg (by rw [waitsToRestore, lost, Bool.false_and]; exact Bool.false_ne_true)]

/-- R123: the evaluation right after a notice finds the list that the notice selected available, or finds both lost. -/
theorem evaluateSlot_of_moved
    (moved : s.slots[i].protection = Protection.moved (s.noticeSelect s.routes[i].active)) :
    s.evaluateSlot i = if s.bothLost s.routes[i].active then s.doubleLose i else s := by
  have stay := stayAvailable_of_moved moved
  have selected : s.slots[i].protection.selected = s.noticeSelect s.routes[i].active := by rw [moved, Protection.moved]
  rw [noticeSelect_eq] at selected
  unfold evaluateSlot bothLost
  dsimp only
  rw [selected]
  cases hb : s.routes[i].active.backup with
  | none =>
    have kept : (s.updateProtection i fun x => { x with wtrTimer := none }) = s :=
      updateProtection_of_fixed (by rw [moved]; rfl)
    simp [stay, kept]
  | some b =>
    cases hp : s.available s.routes[i].active.primary with
    | true => simp [stay]
    | false =>
      cases ha : s.available b with
      | true => simp [ha, restoreSlot_of_lost hp, stay]
      | false => simp [ha]

/-- R118, R122: the first evaluation that finds both lists not available marks the slot, latches the alarm, and raises the
event. -/
theorem doubleLose_of_clear (clear : s.slots[i].protection.doubleLoss = false) :
    s.doubleLose i =
      { s with
        slots := updateAt s.slots i fun x => { x with protection := { x.protection with wtrTimer := none, doubleLoss := true } }
        events := EventUnit.raise s.timing.periodCounter .doubleLoss i 0#16 (s.events.latch alarmDoubleLoss) } := by
  rw [doubleLose, clear, if_neg Bool.false_ne_true]
  rfl

/-- R118, R123: the slot's evaluation is still due when its notice is taken, and finds both lists not available. -/
def losesBoth (s : State) (i : SlotIdx) : Bool := s.slots[i].due.protect && s.bothLost s.routes[i].active

/-- R86, R123: a slot after the protection unit's work for it, where that work takes a notice. -/
def noticedSlot (s : State) (i : SlotIdx) : Slot :=
  { s.slots[i] with
    protection := { Protection.moved (s.noticeSelect s.routes[i].active) with doubleLoss := s.losesBoth i }
    requests := s.slots[i].requests ++
      [⟨s.routes[i].active.list (s.noticeSelect s.routes[i].active), s.routes[i].active.profile⟩]
    due := { s.slots[i].due with notice := false, protect := false } }

/-- R122: the event unit after that work. -/
def noticedEvents (s : State) (i : SlotIdx) : EventUnit :=
  if s.losesBoth i then
    EventUnit.raise s.timing.periodCounter .doubleLoss i 0#16 (s.events.latch alarmDoubleLoss)
  else s.events

theorem takeNotice_protection (s : State) (i : SlotIdx) :
    (s.takeNotice i).slots[i].protection =
      Protection.moved ((s.takeNotice i).noticeSelect (s.takeNotice i).routes[i].active) := by
  rw [s.takeNotice_writes i]
  exact congrArg Slot.protection (updateAt_get_self s.slots i _)

theorem takeNotice_protect (s : State) (i : SlotIdx) :
    (s.takeNotice i).slots[i].due.protect = s.slots[i].due.protect := by
  rw [s.takeNotice_writes i]
  exact (congrArg (fun x : Slot => x.due.protect) (updateAt_get_self s.slots i _)).trans rfl

/-- R123: the evaluation that follows a notice is all that can make it a double loss. -/
theorem ensureEvaluation_takeNotice (s : State) (i : SlotIdx) :
    (s.takeNotice i).ensureEvaluation i =
      { s with slots := updateAt s.slots i fun _ => s.noticedSlot i, events := s.noticedEvents i } := by
  have evaluated := evaluateSlot_of_moved (s.takeNotice_protection i)
  have same : (s.takeNotice i).bothLost (s.takeNotice i).routes[i].active = s.bothLost s.routes[i].active := rfl
  have clear : (s.takeNotice i).slots[i].protection.doubleLoss = false := by rw [takeNotice_protection]; rfl
  rw [same] at evaluated
  unfold ensureEvaluation noticedSlot noticedEvents losesBoth
  rw [takeNotice_protect, evaluated]
  cases hd : s.slots[i].due.protect with
  | false =>
    rw [Bool.false_and, if_neg Bool.false_ne_true, if_neg Bool.false_ne_true, s.takeNotice_writes i]
    congr 1
    exact updateAt_congr _ _ (by simp only [hd, Protection.moved])
  | true =>
    rw [Bool.true_and, if_pos rfl]
    cases s.bothLost s.routes[i].active with
    | false =>
      rw [if_neg Bool.false_ne_true, s.takeNotice_writes i]
      simp only [updateDue, updateSlot, updateAt_updateAt]
      rfl
    | true =>
      rw [if_pos rfl, doubleLose_of_clear clear, s.takeNotice_writes i]
      simp only [updateDue, updateSlot, updateAt_updateAt]
      rfl

/-- R123, R124: the protection unit's work for a slot that waits for its notice. -/
theorem ensureProtect_of_notice (none : NoCommitDue s) (notice : s.slots[i].due.notice = true) :
    s.ensureProtect i = { s with slots := updateAt s.slots i fun _ => s.noticedSlot i, events := s.noticedEvents i } := by
  rw [ensureProtect_of_none none, ensureNotice, if_pos notice, ensureEvaluation_takeNotice]

theorem noticedEvents_keeps (s : State) (i : SlotIdx) : s.events.queue ⊆ (s.noticedEvents i).queue := by
  unfold noticedEvents
  split
  · exact EventUnit.queue_subset_raise (s.events.latch alarmDoubleLoss) _ _ _ _
  · exact List.Subset.refl _

/-- What a slot becomes rests on the ports, the entries, and the slot itself. -/
theorem noticedSlot_congr (ports : t.ports = s.ports) (routes : t.routes = s.routes) (slot : t.slots[i] = s.slots[i]) :
    t.noticedSlot i = s.noticedSlot i := by
  unfold noticedSlot losesBoth bothLost noticeSelect available
  rw [ports, routes, slot]

/-- R86, R124: the protection unit's work for the replaced slots, one after another. -/
theorem foldl_ensureProtect {l : List SlotIdx} (distinct : l.Nodup) (none : NoCommitDue s)
    (waiting : ∀ i ∈ l, s.slots[i].due.notice = true) :
    ∃ (slots : Vector Slot 64) (events : EventUnit),
      l.foldl ensureProtect s = { s with slots := slots, events := events } ∧
        (∀ i : SlotIdx, slots[i] = if i ∈ l then s.noticedSlot i else s.slots[i]) ∧ s.events.queue ⊆ events.queue := by
  induction l generalizing s with
  | nil => exact ⟨s.slots, s.events, rfl, fun _ => (if_neg List.not_mem_nil).symm, List.Subset.refl _⟩
  | cons j l ih =>
    obtain ⟨fresh, distinct⟩ := List.nodup_cons.mp distinct
    have first := ensureProtect_of_notice none (waiting j List.mem_cons_self)
    have others : ∀ i : SlotIdx, i ≠ j → (s.ensureProtect j).slots[i] = s.slots[i] := ensureProtect_only none j
    have apart : ∀ i ∈ l, i ≠ j := fun i hi same => fresh (same ▸ hi)
    obtain ⟨slots, events, fold, each, kept⟩ := ih (s := s.ensureProtect j) distinct ((StaysDone.ensureProtect s j).commit none)
      fun i hi => by rw [others i (apart i hi)]; exact waiting i (List.mem_cons_of_mem _ hi)
    have own : (s.ensureProtect j).slots[j] = s.noticedSlot j := by
      rw [first]
      exact updateAt_get_self s.slots j _
    refine ⟨slots, events, by rw [List.foldl_cons, fold, first], fun i => ?_, ?_⟩
    · rw [each i]
      by_cases hi : i ∈ l
      · rw [if_pos hi, if_pos (List.mem_cons_of_mem _ hi)]
        exact noticedSlot_congr (by rw [first]) (by rw [first]) (others i (apart i hi))
      · rw [if_neg hi]
        by_cases same : i = j
        · rw [same, own, if_pos List.mem_cons_self]
        · rw [others i same, if_neg (fun mem => hi (List.mem_of_ne_of_mem same mem))]
    · have before : s.events.queue ⊆ (s.ensureProtect j).events.queue := by
        rw [first]
        exact s.noticedEvents_keeps j
      exact List.Subset.trans before kept

/-! ### The commit unit's work -/

theorem commitDue_eq {c : PendingCommit} (boundary : s.timing.atBoundary = true) (pending : s.pendingCommit = some c)
    (now : c.effective = s.timing.periodCounter) : s.commitDue = some c := by
  simp [commitDue, pending, boundary, now]

theorem dirtyIn_nodup (s : State) (mask : BitVec 4) : (s.dirtyIn mask).Nodup := (List.nodup_finRange 64).filter _

/-- R85 to R87: all that the commit unit writes. -/
theorem takeCommit_eq {c : PendingCommit} {replaced : SlotIdx → Bool} (h : ∀ i, i ∈ s.dirtyIn c.mask ↔ replaced i = true) :
    s.takeCommit c =
      { s with
        routes := Vector.ofFn fun i : SlotIdx =>
          if replaced i then { s.routes[i] with active := s.routes[i].staging, dirty := false } else s.routes[i]
        slots := Vector.ofFn fun i : SlotIdx =>
          if replaced i then { s.slots[i] with due := { s.slots[i].due with notice := true } } else s.slots[i]
        pendingCommit := none
        events := s.events.raise s.timing.periodCounter .commitDone 0 (BitVec.ofNat 16 (s.dirtyIn c.mask).length) } := by
  obtain ⟨slots, routes, written, each⟩ := s.takeCommit_writes c
  simp only [h] at each
  rw [written, table_eq_ofFn fun i => (each i).1, table_eq_ofFn fun i => (each i).2]

theorem takeCommit_noCommitDue (s : State) (c : PendingCommit) : NoCommitDue (s.takeCommit c) :=
  fun _ pending => absurd pending (Option.not_mem_none _)

/-- R85 to R87, R123: the row is the commit unit's work and then the notice of each replaced slot; every other slot keeps what
it held, and the records of the queue stay. -/
theorem commitTakesEffect_eq {c : PendingCommit} {replaced : SlotIdx → Bool} (due : s.commitDue = some c)
    (h : ∀ i, i ∈ s.dirtyIn c.mask ↔ replaced i = true) :
    ∃ events : EventUnit,
      s.commitTakesEffect =
        { s.takeCommit c with
          slots := Vector.ofFn fun i : SlotIdx => if replaced i then (s.takeCommit c).noticedSlot i else s.slots[i]
          events := events } ∧
        (s.takeCommit c).events.queue ⊆ events.queue := by
  have table : ∀ i : SlotIdx, (s.takeCommit c).slots[i] =
      if replaced i then { s.slots[i] with due := { s.slots[i].due with notice := true } } else s.slots[i] := fun i => by
    rw [takeCommit_eq h]
    exact Vector.getElem_ofFn i.isLt
  obtain ⟨slots, events, fold, each, kept⟩ :=
    foldl_ensureProtect (s.dirtyIn_nodup c.mask) (s.takeCommit_noCommitDue c) fun i hi => by
      rw [table, if_pos ((h i).mp hi)]
  refine ⟨events, ?_, kept⟩
  rw [commitTakesEffect, due]
  dsimp only
  rw [fold, table_eq_ofFn fun i => (each i).trans ?_]
  by_cases hi : i ∈ s.dirtyIn c.mask
  · rw [if_pos hi, if_pos ((h i).mp hi)]
  · rw [if_neg hi, table, if_neg fun r => hi ((h i).mpr r), if_neg fun r => hi ((h i).mpr r)]

end State

end Sys2Proof.Machine

namespace Sys2Proof.Proofs
open Machine

/-- Settles O48: the commit unit's work and then a fold over the replaced slots, each of which meets its notice alone; the
evaluation after a notice can only find the list the notice selected, or both lists lost. -/
theorem commitTakesEffectAtItsPeriod : Obligations.CommitTakesEffectAtItsPeriod := by
  intro noticed noticedEq
  obtain rfl : noticed = State.noticedSlot := by
    funext s i
    rw [noticedEq, State.noticedSlot, State.losesBoth, State.bothLost, State.noticeSelect_eq, ← Bool.and_assoc]
    rfl
  refine ⟨fun s c replaced n boundary pending now replacedEq counted => ?_, fun s i notice none => ?_⟩
  · have due : s.commitDue = some c := State.commitDue_eq boundary pending now
    have dirty : ∀ i, i ∈ s.dirtyIn c.mask ↔ replaced i = true := fun i => by
      rw [State.mem_dirtyIn, replacedEq, Bool.and_eq_true]
      rfl
    have count : (s.dirtyIn c.mask).length = n := by rw [counted, funext replacedEq, State.dirtyIn_length]
    obtain ⟨events, effect, kept⟩ := State.commitTakesEffect_eq due dirty
    have committed := State.takeCommit_eq dirty
    rw [count] at committed
    have work : s.takeCommitIfDue = s.takeCommit c := by rw [State.takeCommitIfDue, due]
    refine ⟨s.takeCommit c, s.commitTakesEffect, congrArg Host.Outcome.next work, rfl, committed, by rw [effect],
      fun enabled room =>
        ⟨s.events.newRecord s.timing.periodCounter .commitDone 0 (BitVec.ofNat 16 n), ?_, rfl, rfl, rfl, rfl⟩⟩
    rw [effect]
    refine kept ?_
    rw [committed]
    exact s.events.newRecord_mem_raise _ _ _ _ enabled room
  · exact congrArg Host.Outcome.next (State.ensureProtect_of_notice none notice)

end Sys2Proof.Proofs
end

section
/-! PROOFS. The slot contexts (R96, R99, R100): a making of a slot's context leaves it lawful, and every other operation a step
is made of leaves the contexts alone. -/

namespace Sys2Proof.Machine

/-! ### A context between the stages of its making -/

/-- R97: what of its law a context holds between the stages of its making. A FADE_OUT just entered stands at position 0, and the
level of the period is the step's to fix. -/
structure SlotContext.Ready (c : SlotContext) : Prop where
  steady : c.phase = .steady → c.phaseLength = 0 ∧ c.phasePosition = 0
  arrived : c.phase = .steady ∨ c.phase = .fadeIn ∨ c.phase = .settle → c.target = c.sounding
  short : c.phaseLength ≤ 1023

/-- R99: a context that the step has placed in its phase, before its level is fixed. -/
structure SlotContext.Placed (c : SlotContext) : Prop extends c.Ready where
  within : c.phase ≠ .steady → 1 ≤ c.phasePosition ∧ c.phasePosition ≤ c.phaseLength

/-- R100: no phase sounds above full level. -/
theorem levelOf_le {phase : Phase} {length position : Nat} (within : phase ≠ .steady → position ≤ length) :
    levelOf phase length position ≤ 4096 := by
  cases phase with
  | steady => exact le_refl _
  | gap => exact Nat.zero_le _
  | settle => exact le_refl _
  | fadeOut =>
    refine Nat.div_le_of_le_mul ?_
    rw [Nat.mul_comm length]
    exact Nat.mul_le_mul_left 4096 (Nat.sub_le _ _)
  | fadeIn =>
    refine Nat.div_le_of_le_mul ?_
    rw [Nat.mul_comm length]
    exact Nat.mul_le_mul_left 4096 (within Phase.noConfusion)

namespace SlotContext

variable {c : SlotContext} {p : Profile}

theorem sound.ready (h : c.sound) : c.Ready := by
  obtain ⟨-, -, -, arrived, steady, -, short⟩ := h
  exact ⟨steady, arrived, short⟩

/-- R100: the level fixed is the one that the law asks for. -/
theorem Placed.fixLevel_sound (h : c.Placed) : c.fixLevel.sound := by
  refine ⟨levelOf_le fun moving => (h.within moving).2, fun full => ?_, fun gap => ?_, h.arrived, h.steady, h.within, h.short⟩
  · rcases full with phase | phase <;> exact congrArg (levelOf · c.phaseLength c.phasePosition) phase
  · exact congrArg (levelOf · c.phaseLength c.phasePosition) gap

/-! ### The step -/

theorem stand_placed {phase : Phase} {length : Nat} (moving : phase ≠ .steady)
    (arrived : phase = .fadeIn ∨ phase = .settle → c.target = c.sounding) (entered : length ≠ 0) (short : length ≤ 1023) :
    (c.stand phase length).Placed where
  steady still := absurd still moving
  arrived h := arrived (h.resolve_left moving)
  short := short
  within _ := ⟨le_refl _, Nat.one_le_iff_ne_zero.mpr entered⟩

theorem enterSteady_placed (arrived : c.target = c.sounding) : c.enterSteady.Placed where
  steady _ := ⟨rfl, rfl⟩
  arrived _ := arrived
  short := Nat.zero_le _
  within moving := absurd rfl moving

theorem enterSettle_placed (arrived : c.target = c.sounding) : (c.enterSettle p).Placed := by
  unfold enterSettle
  split
  · exact enterSteady_placed arrived
  · next entered => exact stand_placed Phase.noConfusion (fun _ => arrived) entered (by omega)

/-- R99: from FADE_IN on the target list sounds. -/
theorem enterFadeIn_placed : (c.enterFadeIn p).Placed := by
  unfold enterFadeIn
  dsimp only
  split
  · exact enterSettle_placed rfl
  · next entered => exact stand_placed Phase.noConfusion (fun _ => rfl) entered (by omega)

theorem enterGap_placed : (c.enterGap p).Placed := by
  unfold enterGap
  split
  · exact enterFadeIn_placed
  · next entered => exact stand_placed Phase.noConfusion (by simp) entered (by omega)

theorem Ready.nextPhase_placed (h : c.Ready) (moving : c.phase ≠ .steady) : (c.nextPhase p).Placed := by
  unfold nextPhase
  split
  · next still => exact absurd still moving
  · exact enterGap_placed
  · exact enterFadeIn_placed
  · next phase => exact enterSettle_placed (h.arrived (.inr (.inl phase)))
  · next phase => exact enterSteady_placed (h.arrived (.inr (.inr phase)))

theorem Ready.advance_placed (h : c.Ready) : (c.advance p).Placed := by
  unfold advance
  split
  · next still => exact ⟨h, fun moving => absurd still moving⟩
  · next moving =>
    split
    · next before =>
      exact ⟨⟨fun still => absurd still moving, h.arrived, h.short⟩, fun _ => ⟨Nat.succ_pos _, before⟩⟩
    · exact h.nextPhase_placed moving

/-- R97, R99, R100: the step completes the making. -/
theorem Ready.step_sound (h : c.Ready) (p : Profile) : (c.step p).sound := h.advance_placed.fixLevel_sound

/-! ### The settle check and the requests -/

/-- R109: a slot in SETTLE sounds its target list. -/
theorem Ready.failSettle (h : c.Ready) (settle : c.phase = .settle) : c.failSettle.Ready :=
  ⟨fun _ => ⟨rfl, rfl⟩, fun _ => h.arrived (.inr (.inr settle)), Nat.zero_le _⟩

/-- R103, R106, R107: a FADE_OUT, at whatever position it is entered. -/
theorem ready_of_fadeOut (fading : c.phase = .fadeOut) (short : c.phaseLength ≤ 1023) : c.Ready := by
  refine ⟨fun still => ?_, fun arrived => ?_, short⟩
  · exact Phase.noConfusion (fading.symm.trans still)
  · rw [fading] at arrived
    simp at arrived

/-- R104, R105: in FADE_OUT and GAP the target list is free to change. -/
theorem Ready.changeCourse (h : c.Ready) (leaving : c.phase = .fadeOut ∨ c.phase = .gap) (target : MixList) (index : Fin 8) :
    (c.changeCourse target index).Ready := by
  refine ⟨h.steady, fun arrived => ?_, h.short⟩
  have arrived : c.phase = .steady ∨ c.phase = .fadeIn ∨ c.phase = .settle := arrived
  rcases leaving with phase | phase <;> simp [phase] at arrived

theorem Ready.request (h : c.Ready) (target : MixList) (index : Fin 8) (p : Profile) : (c.request target index p).Ready := by
  have short : p.fadeOut.val ≤ 1023 := by omega
  unfold SlotContext.request
  split
  · exact h
  · split
    · exact ready_of_fadeOut rfl short
    · next phase => exact h.changeCourse (.inl phase) target index
    · next phase => exact h.changeCourse (.inr phase) target index
    · exact ready_of_fadeOut rfl short
    · exact ready_of_fadeOut rfl short

/-- R112: the context at a soft reset. -/
theorem softReset_sound (r : RouteRecord) : (softReset r).sound :=
  ⟨le_refl _, fun _ => rfl, Phase.noConfusion, fun _ => rfl, fun _ => ⟨rfl, rfl⟩, fun moving => absurd rfl moving,
    Nat.zero_le _⟩

end SlotContext

/-! ### The making of a context -/

namespace State

variable (s : State) (i : SlotIdx)

/-- R97, stage 1. -/
theorem applySettle_context : (s.applySettle i).slots[i].context =
    if s.slots[i].settleFailed && s.slots[i].context.phase = .settle then s.slots[i].context.failSettle
    else s.slots[i].context :=
  congrArg Slot.context (updateAt_get_self s.slots i _)

/-- R101 to R108: all that a request taken writes. -/
theorem takeRequest_eq (r : Request) :
    takeRequest i s r =
      { s with
        slots := updateAt s.slots i fun x => { x with context := x.context.request r.target r.profile s.latching[r.profile] }
        entered := updateAt s.entered r.profile fun b => b || s.slots[i].context.requestEnters r.target
        events := if s.slots[i].context.requestSupersedes r.target then
            s.events.raise s.timing.periodCounter .transitionSuperseded i 0#16
          else s.events } := by
  unfold takeRequest
  dsimp only
  split <;> rfl

theorem takeRequest_context (r : Request) : (takeRequest i s r).slots[i].context =
    s.slots[i].context.request r.target r.profile s.latching[r.profile] := by
  rw [takeRequest_eq]
  exact congrArg Slot.context (updateAt_get_self s.slots i _)

theorem takeRequests_context : (s.takeRequests i).slots[i].context =
    (s.slots[i].requests.foldl (takeRequest i) s).slots[i].context := by
  rw [takeRequests, updateSlot_slot]

theorem stepSlot_context : (s.stepSlot i).slots[i].context =
    s.slots[i].context.step s.latching[s.slots[i].context.governing] := by
  obtain ⟨events, hw⟩ := s.stepSlot_writes i
  rw [hw]
  exact congrArg Slot.context (updateAt_get_self s.slots i _)

/-- R97: the three stages of a making, one after another. -/
theorem makeContext_sound {s : State} {i : SlotIdx} (h : s.slots[i].context.Ready) :
    (s.makeContext i).slots[i].context.sound := by
  have settled : (s.applySettle i).slots[i].context.Ready := by
    rw [applySettle_context]
    split
    · next fails =>
      rw [Bool.and_eq_true, decide_eq_true_eq] at fails
      exact h.failSettle fails.2
    · exact h
  have asked : ((s.applySettle i).takeRequests i).slots[i].context.Ready := by
    rw [takeRequests_context]
    refine foldl_keeps (P := fun t : State => t.slots[i].context.Ready) (fun t r ready => ?_) settled
    rw [takeRequest_context]
    exact ready.request _ _ _
  rw [makeContext, stepSlot_context]
  exact asked.step_sound _

end State

/-! ### What the frames of a port leave alone -/

/-- Of the state, `t` differs from `s` in the ports, the channel, the egress ports and the event unit at most. -/
def WritesLanes (s t : State) : Prop :=
  ∃ ports channel egress events, t = { s with ports := ports, channel := channel, egress := egress, events := events }

namespace WritesLanes

variable {s t u : State} {p : PortIdx}

theorem refl (s : State) : WritesLanes s s := ⟨_, _, _, _, rfl⟩

theorem trans (h : WritesLanes s t) (k : WritesLanes t u) : WritesLanes s u := by
  obtain ⟨_, _, _, _, rfl⟩ := h
  obtain ⟨_, _, _, _, rfl⟩ := k
  exact ⟨_, _, _, _, rfl⟩

theorem slots (h : WritesLanes s t) : t.slots = s.slots := by
  obtain ⟨_, _, _, _, rfl⟩ := h
  rfl

theorem updatePort (s : State) (p : PortIdx) (f : Port → Port) : WritesLanes s (s.updatePort p f) := ⟨_, _, _, _, rfl⟩

theorem service (s : State) (p : PortIdx) : KeptByService (WritesLanes s) p where
  buffer _ _ h := h.trans ⟨_, _, _, _, rfl⟩
  error _ _ h := h.trans ⟨_, _, _, _, rfl⟩
  queued _ _ h := h.trans ⟨_, _, _, _, rfl⟩
  placed _ _ h := h.trans ⟨_, _, _, _, rfl⟩

theorem failQualification (s : State) (p : PortIdx) (detail : Word16) : WritesLanes s (s.failQualification p detail) := by
  obtain ⟨f, events, hw⟩ := s.failQualification_writes p detail
  exact ⟨_, _, _, _, hw⟩

theorem storeArrival (s : State) (p : PortIdx) (r : FrameRecord) : WritesLanes s (s.storeArrival p r) := by
  obtain ⟨f, events, hw⟩ := (s.updatePort p fun x => x.record s.timing.tick r.sequence).appendFrame_writes p r
  exact (updatePort s p _).trans ⟨_, _, _, _, hw⟩

/-- R36: the port's state machine. -/
theorem portArrival (s : State) (p : PortIdx) (r : FrameRecord) (reached : Bool) :
    WritesLanes s (s.portArrival p r reached) := by
  have qualified : WritesLanes s (if reached then s.updatePort p fun x => x.enterQualify s.timing.tick r.sequence else s) := by
    split
    · exact updatePort s p _
    · exact refl s
  unfold State.portArrival
  split
  · exact qualified
  · exact qualified
  · unfold State.qualifyArrival
    dsimp only
    split
    · exact (updatePort s p _).trans (failQualification _ p _)
    · exact updatePort s p _
  · refine (storeArrival s p r).trans ?_
    unfold State.lockIfPrimed
    split
    · exact ⟨_, _, _, _, rfl⟩
    · exact refl _
  · exact storeArrival s p r
  · exact refl s

theorem takeArrival (s : State) (p : PortIdx) (f : LaneFrame) (reached : Bool) : WritesLanes s (s.takeArrival p f reached) := by
  refine (service s p).takeFragment _ _ (WritesLanes.trans ?_ (portArrival _ p _ reached))
  rw [State.checkSequence_eq]
  exact updatePort s p _

theorem examineConfirming (s : State) (p : PortIdx) (f : LaneFrame) : WritesLanes s (s.examineConfirming p f) := by
  unfold State.examineConfirming
  split
  · split
    · exact updatePort s p _
    · exact (updatePort s p _).trans (takeArrival _ p f true)
  · exact updatePort s p _

theorem examineMissing (s : State) (p : PortIdx) : WritesLanes s (s.examineMissing p) := by
  unfold State.examineMissing
  split
  · exact updatePort s p _
  · rw [State.loseAlignment_eq]
    split
    · exact (updatePort s p _).trans (failQualification _ p _)
    all_goals exact ⟨_, _, _, _, rfl⟩

end WritesLanes

/-! ### R96, R100: the law of the contexts -/

namespace ContextsSound

variable {s t : State} {i : SlotIdx}

theorem of_slots (h : ContextsSound s) (slots : t.slots = s.slots) : ContextsSound t := by
  unfold ContextsSound
  rw [slots]
  exact h

theorem of_contexts (h : ContextsSound s) (contexts : ∀ j : SlotIdx, t.slots[j].context = s.slots[j].context) :
    ContextsSound t := fun j => by
  rw [contexts]
  exact h j

/-- One slot's context made anew. -/
theorem of_only (h : ContextsSound s) (only : OnlySlot i s t) (own : t.slots[i].context.sound) : ContextsSound t := fun j => by
  by_cases hj : j = i
  · rw [hj]
    exact own
  · rw [only j hj]
    exact h j

/-- An update of one slot that leaves its context alone. -/
theorem of_update {f : Slot → Slot} {events : EventUnit} (h : ContextsSound s)
    (context : (f s.slots[i]).context = s.slots[i].context) :
    ContextsSound { s with slots := updateAt s.slots i f, events := events } := by
  refine h.of_only (.of_update rfl) ?_
  dsimp only
  rw [updateAt_get_self, context]
  exact h i

theorem makeContext (h : ContextsSound s) (i : SlotIdx) : ContextsSound (s.makeContext i) := by
  refine h.of_only (i := i) ?_ (State.makeContext_sound (h i).ready)
  obtain ⟨f, entered, events, hw⟩ := s.makeContext_writes i
  exact .of_update (by rw [hw])

theorem armWorks (h : ContextsSound s) : ContextsSound s.armWorks := h.of_contexts fun j => by
  rw [State.armWorks_slot]

theorem fixTiming (h : ContextsSound s) : ContextsSound s.fixTiming := by
  obtain ⟨timing, events, hw⟩ := s.fixTiming_writes
  exact h.of_slots (by rw [hw])

/-- R112: every slot takes the primary list of its entry. -/
theorem softReset (s : State) : ContextsSound s.softReset := by
  have values : ContextsSound s.softResetValues := fun j => by
    have slot : s.softResetValues.slots[j] = s.softResetSlot j := Vector.getElem_ofFn j.isLt
    rw [slot]
    exact SlotContext.softReset_sound _
  exact (values.of_slots (t := s.softResetValues.raise .resetDone 0 ResetCause.soft.code) rfl).armWorks.fixTiming

/-- R85: a commit leaves each replaced slot its notice. -/
theorem takeCommit (h : ContextsSound s) (c : PendingCommit) : ContextsSound (s.takeCommit c) := by
  obtain ⟨slots, routes, hw, each⟩ := s.takeCommit_writes c
  refine h.of_contexts fun j => ?_
  have slot : (s.takeCommit c).slots[j] = slots[j] := by rw [hw]
  rw [slot, (each j).1]
  split <;> rfl

theorem clearMeters (h : ContextsSound s) (e : PortIdx) (clear : Bool) : ContextsSound (clearMeters s e clear) := by
  unfold Machine.clearMeters
  split
  · refine h.of_contexts fun j => ?_
    dsimp only
    rw [Fin.getElem_fin, Vector.getElem_ofFn]
    split <;> rfl
  · exact h

theorem blocks : KeptByBlocks ContextsSound where
  queue _ _ h := h.of_slots rfl
  afterReset := contextsSound_afterReset
  softReset s _ := softReset s
  passTicks _ _ h := h.of_slots rfl
  beginBoundary s h := (h.of_slots (t := (s.beginPeriod.updateEvents EventUnit.ageRecords).armPicks) rfl).armWorks
  timing _ h := h.fixTiming
  commit _ c _ h := h.takeCommit c
  window s p h := by
    obtain ⟨f, events, hw⟩ := s.takeWindow_writes p
    exact h.of_slots (by rw [hw])
  loseSource _ _ _ h := h.of_slots rfl
  silence s p h := by
    obtain ⟨f, events, hw⟩ := s.takeSilence_writes p
    exact h.of_slots (by rw [hw])
  sent s e h := by
    obtain ⟨f, processor, events, hw⟩ := s.completeSending_writes e
    exact h.of_slots (by rw [hw])
  reportTimeout _ _ h := h.of_slots rfl
  pick s p h := by
    obtain ⟨f, events, hw⟩ := s.pickFrame_writes p
    exact h.of_slots (by rw [hw])
  settle s i h := by
    obtain ⟨failed, events, hw⟩ := s.checkSettle_writes i
    rw [hw]
    exact h.of_update rfl
  notice s i h := by
    rw [s.takeNotice_writes i]
    exact h.of_update rfl
  evaluate s i h := by
    obtain ⟨f, new, events, hw⟩ := s.evaluateSlot_evaluates i
    rw [hw]
    exact h.of_update rfl
  makeContext _ i h := h.makeContext i
  mixSlot s i h := by
    obtain ⟨meters, output, events, hw⟩ := s.mixSlot_writes i
    rw [hw]
    exact h.of_update rfl
  due s i f _ h := h.of_update rfl
  monitor s m h := by
    obtain ⟨f, events, hw⟩ := s.evaluateMonitor_writes m
    exact h.of_slots (by rw [hw])
  pickMessage s e _ h := by
    obtain ⟨f, events, hw⟩ := s.pickMessage_writes e
    exact h.of_slots (by rw [hw])
  serve _ _ h := h.of_slots rfl
  pass _ _ h := h.of_slots rfl
  sendFrame _ _ h := h.of_slots rfl
  candidate s p n f _ h := by
    unfold State.examineCandidate
    split <;> exact h.of_slots rfl
  confirming s p f _ h := h.of_slots (WritesLanes.examineConfirming s p f).slots
  arrival s p f _ _ h := h.of_slots (WritesLanes.takeArrival (s.updateFramer p Framer.takeValid) p f _).slots
  crcError _ _ _ h := h.of_slots rfl
  missing s p _ h := h.of_slots (WritesLanes.examineMissing s p).slots
  taken _ _ _ _ _ h := h.of_slots rfl
  endTurn _ h := h.of_slots rfl
  respond _ _ _ _ _ h := h.of_slots rfl
  halt _ h := h.of_slots rfl
  control s p _ _ h := by
    unfold moveControl
    split <;> exact h.of_slots rfl
  enableEgress s e h := by
    unfold Machine.enableEgress
    split <;> exact h.of_slots rfl
  disableEgress s e _ h := by
    unfold Machine.disableEgress
    split
    · obtain ⟨f, processor, events, sent⟩ := s.completeSending_writes e
      obtain ⟨events', abandoned⟩ := (s.completeSending e).abandonSending_writes e
      rw [abandoned, sent]
      exact h.of_slots rfl
    · exact h.of_slots rfl
  configurePort s p enable x _ h := by
    rw [configurePort_eq]
    exact h.of_slots rfl
  restartPort s p h := by
    rw [restartPort_eq]
    exact h.of_slots rfl
  clearCounters s p clear h := by
    cases clear <;> exact h.of_slots rfl
  source _ _ h := h.of_slots rfl
  stage _ _ _ _ _ h := h.of_slots rfl
  copyActive s mask h := by
    unfold State.copyActive
    exact h.of_slots rfl
  pendingCommit _ _ h := h.of_slots rfl
  profile s i x h := h.of_slots (by rw [s.writeProfile_writes i x])
  clearClip s i clear h := by
    unfold clearClipCounter
    split
    · exact h.of_update rfl
    · exact h.of_slots rfl
  clearMeters _ e clear h := h.clearMeters e clear
  switch s i select _ h := by
    unfold switchSlot
    split
    · exact h.of_slots rfl
    · exact of_update (s := s.updateProtection i fun _ => switchedProtection select) (h.of_update rfl) rfl
  monitorConfig _ _ _ h := h.of_slots rfl
  eventConfig _ _ _ _ h := h.of_slots rfl
  acknowledge _ _ h := h.of_slots rfl
  clearAlarms _ _ h := h.of_slots rfl
  pinMask _ _ h := h.of_slots rfl

end ContextsSound

end Sys2Proof.Machine

namespace Sys2Proof.Proofs
open Machine

/-- Settles O55: of the operations of a step the making of a slot's context and the resets alone write contexts; the requests
of a making leave the context ready for its step, and the step places it in its phase and fixes the level of that place. -/
theorem stepsKeepContextsSound : Obligations.StepsKeepContextsSound :=
  fun _ _ sound taken => ContextsSound.blocks.step_keeps sound taken

end Sys2Proof.Proofs
end

section
/-! PROOFS. READ_PROFILE and READ_ENTRY (R95, R76, R77): the two reads of the tables, from any port. -/

namespace Sys2Proof.Machine

variable {s : State} {m : Message}

/-- R95: a READ_PROFILE in range. -/
theorem readProfileRule_eq {i : Fin 8} (length : messageLength m = 4) (index : argByte m 3 = i.val) :
    readProfileRule m s = okWith s (profileBytes s.profiles[i]) := by
  rw [readProfileRule, argFin_eq.mpr index]
  exact if_pos length

/-- R76: a READ_ENTRY in range. -/
theorem readEntryRule_eq {i : SlotIdx} {staging : Bool} (length : messageLength m = 5) (slot : argByte m 3 = i.val)
    (option : argByte m 4 = if staging then 1 else 0) :
    readEntryRule m s = okWith s (boolByte s.routes[i].dirty :: recordBytes (selectedRecord s.routes[i] staging)) := by
  rw [readEntryRule, argFin_eq.mpr slot, argBool_eq.mpr option]
  exact if_pos length

end Sys2Proof.Machine

namespace Sys2Proof.Proofs
open Machine

/-- Settles O3: each row is its owning rule on the state in which the processor has taken the command, and the rule places the
bytes of the profile or of the record and writes nothing. -/
theorem tableReadsAnswer : Obligations.TableReadsAnswer := by
  intro s older newer m turn
  refine ⟨fun i code length index => ?_, fun i staging r code length slot option record => ?_⟩
  · have row : exec (.readProfile m) s = .next ((readProfileRule m (s.taken older newer)).deliver m) := by
      rw [← judge_anyPort m (readProfileRule m)]
      exact congrArg Host.Outcome.next (executeCommand_of_turn turn code _ _)
    rw [row, readProfileRule_eq length index, deliver_okWith _ (by exact turn.room)]
    rfl
  · have row : exec (.readEntry m) s = .next ((readEntryRule m (s.taken older newer)).deliver m) := by
      rw [← judge_anyPort m (readEntryRule m)]
      exact congrArg Host.Outcome.next (executeCommand_of_turn turn code _ _)
    have selected : selectedRecord (s.taken older newer).routes[i] staging = r := record.symm
    rw [row, readEntryRule_eq length slot option, selected, recordBytes, boolByte_decide,
      deliver_okWith _ (by exact turn.room)]
    rfl

end Sys2Proof.Proofs
end

section
/-! PROOFS. The transition engine at work (R97 to R110): the settle check of a slot, and the making of its context by what
waits for it, by its requests and by the step. -/

namespace Sys2Proof.Machine

/-! ### Requests and steps, by the phase -/

namespace SlotContext

variable {c : SlotContext} {p : Profile} {target : MixList} {index : Fin 8}

/-- R101: a request for the list of the slot's course. -/
theorem request_idle (idle : c.requestIdle target = true) :
    c.request target index p = c ∧ c.requestEnters target = false ∧ c.requestSupersedes target = false := by
  simp [request, requestEnters, requestSupersedes, idle]

theorem request_steady (phase : c.phase = .steady) (moves : c.requestIdle target = false) :
    c.request target index p = c.startFadeOut target index p ∧ c.requestEnters target = true ∧
      c.requestSupersedes target = false := by
  simp [request, requestEnters, requestSupersedes, moves, phase]

theorem request_leaving (phase : c.phase = .fadeOut ∨ c.phase = .gap) (moves : c.requestIdle target = false) :
    c.request target index p = c.changeCourse target index ∧ c.requestEnters target = false ∧
      c.requestSupersedes target = true := by
  rcases phase with phase | phase <;> simp [request, requestEnters, requestSupersedes, moves, phase]

theorem request_fadeIn (phase : c.phase = .fadeIn) (moves : c.requestIdle target = false) :
    c.request target index p = c.reverse target index p ∧ c.requestEnters target = true ∧
      c.requestSupersedes target = true := by
  simp [request, requestEnters, requestSupersedes, moves, phase]

theorem request_settle (phase : c.phase = .settle) (moves : c.requestIdle target = false) :
    c.request target index p = c.startFadeOut target index p ∧ c.requestEnters target = true ∧
      c.requestSupersedes target = true := by
  simp [request, requestEnters, requestSupersedes, moves, phase]

/-- R101: in transition a request is compared with the target list. -/
theorem requestIdle_of_moving (moving : c.phase ≠ .steady) : c.requestIdle target = listsEqual target c.target := by
  rw [requestIdle, course, if_neg moving]

/-- R106: the periods of fade-out left are the least that reach the level, the quotient rounded up. -/
theorem reversalPeriods_eq {level fadeOut r : Nat} (least : 4096 * r < level * fadeOut + 4096)
    (reaches : level * fadeOut ≤ 4096 * r) : reversalPeriods level fadeOut = r := by
  unfold reversalPeriods Config.fullLevel
  omega

/-- R99: the step stays in the phase. -/
theorem advance_within (moving : c.phase ≠ .steady) (before : c.phasePosition < c.phaseLength) :
    c.advance p = { c with phasePosition := c.phasePosition + 1 } := by
  rw [advance, if_neg moving, if_pos before]

/-- R99: the step takes the slot out of its phase. -/
theorem advance_ends (moving : c.phase ≠ .steady) (ends : c.phaseLength ≤ c.phasePosition) :
    c.advance p = c.nextPhase p := by
  rw [advance, if_neg moving, if_neg (Nat.not_lt.mpr ends)]

theorem phaseEnds_eq_true (moving : c.phase ≠ .steady) (ends : c.phaseLength ≤ c.phasePosition) : c.phaseEnds = true := by
  simp [phaseEnds, moving, ends]

/-- R98: a step that meets no phase at its end passes to no phase. -/
theorem stepEnters_of_stays (stays : c.phase ≠ .steady → c.phasePosition < c.phaseLength) : c.stepEnters = false := by
  have goesOn : c.phaseEnds = false := by simpa [phaseEnds] using stays
  rw [stepEnters, goesOn, Bool.false_and]

/-- R108: nor does it bring the slot into STEADY. -/
theorem stepFinishes_of_stays (stays : c.phase ≠ .steady → c.phasePosition < c.phaseLength) : c.stepFinishes p = false := by
  by_cases phase : c.phase = .steady
  · simp [stepFinishes, phase]
  · rw [stepFinishes, advance_within phase (stays phase)]
    simp [phase]

theorem step_steady (phase : c.phase = .steady) : c.step p = { c with level := 4096 } := by
  rw [step, advance, if_pos phase, fixLevel, phase]
  rfl

theorem step_within (moving : c.phase ≠ .steady) (before : c.phasePosition < c.phaseLength) :
    c.step p =
      { c with
        phasePosition := c.phasePosition + 1, level := levelOf c.phase c.phaseLength (c.phasePosition + 1) } := by
  rw [step, advance_within moving before, fixLevel]

/-- R99: SETTLE is the last phase. -/
theorem nextPhase_settle (phase : c.phase = .settle) : c.nextPhase p = c.enterSteady := by
  rw [nextPhase, phase]

/-- R99: which phase follows, by the lengths that are not 0. -/
theorem nextPhase_gap (phase : c.phase = .fadeOut) (gap : 0 < p.gap.val) : c.nextPhase p = c.stand .gap p.gap.val := by
  rw [nextPhase, phase]
  exact if_neg gap.ne'

theorem nextPhase_pastGap (phase : (c.phase = .fadeOut ∧ p.gap.val = 0) ∨ c.phase = .gap) :
    c.nextPhase p = c.enterFadeIn p := by
  rcases phase with ⟨phase, gap⟩ | phase
  · rw [nextPhase, phase]
    exact if_pos gap
  · rw [nextPhase, phase]

theorem enterFadeIn_of_pos (fadeIn : 0 < p.fadeIn.val) :
    c.enterFadeIn p = { c with sounding := c.target }.stand .fadeIn p.fadeIn.val := if_neg fadeIn.ne'

/-- R99: the phases up to FADE_IN are behind the slot, and `sounding` is the list it then sounds. -/
theorem nextPhase_pastFadeIn {sounding : MixList}
    (phase : (((c.phase = .fadeOut ∧ p.gap.val = 0) ∨ c.phase = .gap) ∧ p.fadeIn.val = 0 ∧ sounding = c.target) ∨
      (c.phase = .fadeIn ∧ sounding = c.sounding)) :
    c.nextPhase p = { c with sounding := sounding }.enterSettle p := by
  rcases phase with ⟨phase, fadeIn, rfl⟩ | ⟨phase, rfl⟩
  · rw [nextPhase_pastGap phase]
    exact if_pos fadeIn
  · have next : c.nextPhase p = c.enterSettle p := by rw [nextPhase, phase]
    exact next

theorem enterSettle_of_pos (settle : 0 < p.settle.val) : c.enterSettle p = c.stand .settle p.settle.val := if_neg settle.ne'

theorem enterSettle_of_zero (settle : p.settle.val = 0) : c.enterSettle p = c.enterSteady := if_pos settle

/-- R99: what follows SETTLE, or follows FADE_IN where SETTLE is passed at once. -/
theorem nextPhase_pastSettle {sounding : MixList}
    (phase : (((c.phase = .fadeOut ∧ p.gap.val = 0) ∨ c.phase = .gap) ∧ p.fadeIn.val = 0 ∧ p.settle.val = 0 ∧
        sounding = c.target) ∨ (c.phase = .fadeIn ∧ p.settle.val = 0 ∧ sounding = c.sounding) ∨
      (c.phase = .settle ∧ sounding = c.sounding)) :
    c.nextPhase p = { c with sounding := sounding }.enterSteady := by
  rcases phase with ⟨phase, fadeIn, settle, sounds⟩ | ⟨phase, settle, sounds⟩ | ⟨phase, rfl⟩
  · rw [nextPhase_pastFadeIn (.inl ⟨phase, fadeIn, sounds⟩), enterSettle_of_zero settle]
  · rw [nextPhase_pastFadeIn (.inr ⟨phase, sounds⟩), enterSettle_of_zero settle]
  · exact nextPhase_settle phase

end SlotContext

/-- R94: a mark set, and one left as it is. -/
theorem updateAt_or_true {n : Nat} (v : Vector Bool n) (k : Fin n) :
    (updateAt v k fun b => b || true) = v.set k.val true k.isLt := by
  simp [updateAt]

theorem updateAt_or_false {n : Nat} (v : Vector Bool n) (k : Fin n) : (updateAt v k fun b => b || false) = v :=
  updateAt_id _ _ (Bool.or_false _)

namespace State

variable {s t : State} {i : SlotIdx}

/-! ### The settle check -/

/-- R113: availability, term by term. -/
theorem available_iff {l : MixList} : s.available l = true ↔ Available s l := by
  simp [available, Available]

/-- R109: the settle check of a slot that holds on a list not available. -/
theorem checkSettle_of_lost (phase : s.slots[i].context.phase = .settle) (lost : ¬Available s s.slots[i].context.sounding) :
    s.checkSettle i = (s.updateSlot i fun x => { x with settleFailed := true }).raise .settleFail i 0#16 := by
  rw [← available_iff, Bool.not_eq_true] at lost
  exact if_pos (by rw [decide_eq_true phase, lost]; rfl)

theorem checkSettle_of_sound (sound : s.slots[i].context.phase ≠ .settle ∨ Available s s.slots[i].context.sounding) :
    s.checkSettle i = s := by
  refine if_neg fun fails => ?_
  rw [Bool.and_eq_true, decide_eq_true_eq, Bool.not_eq_true'] at fails
  obtain ⟨phase, lost⟩ := fails
  rcases sound with other | available
  · exact other phase
  · exact Bool.noConfusion (lost.symm.trans (available_iff.mpr available))

/-! ### The stages of a making -/

/-- R97: no settle check has failed. -/
theorem applySettle_of_passed (passed : s.slots[i].settleFailed = false) : s.applySettle i = s := by
  refine congrArg (fun slots => { s with slots := slots }) (updateAt_id _ _ ?_)
  simp only [passed, Bool.false_and, Bool.false_eq_true, if_false]
  rw [← passed]

/-- R109: a failed settle check, of a slot still in SETTLE. -/
theorem applySettle_of_failed (failed : s.slots[i].settleFailed = true) (phase : s.slots[i].context.phase = .settle) :
    s.applySettle i = s.updateSlot i fun x => { x with settleFailed := false, context := x.context.failSettle } := by
  refine congrArg (fun slots => { s with slots := slots }) (updateAt_congr _ _ ?_)
  simp only [failed, phase, decide_true, Bool.and_self, if_true]

theorem takeRequests_of_none (none : s.slots[i].requests = []) : s.takeRequests i = s := by
  rw [takeRequests, none, List.foldl_nil]
  refine congrArg (fun slots => { s with slots := slots }) (updateAt_id _ _ ?_)
  rw [← none]

/-- R101: a request taken, by what it makes of the context. -/
theorem takeRequest_of {target : MixList} {index : Fin 8} {d : SlotContext} {enters supersedes : Bool}
    (taken : s.slots[i].context.request target index s.latching[index] = d ∧
      s.slots[i].context.requestEnters target = enters ∧ s.slots[i].context.requestSupersedes target = supersedes) :
    takeRequest i s ⟨target, index⟩ =
      { s with
        slots := updateAt s.slots i fun x => { x with context := d }
        entered := updateAt s.entered index fun b => b || enters
        events := if supersedes then s.events.raise s.timing.periodCounter .transitionSuperseded i 0#16 else s.events } := by
  obtain ⟨rfl, rfl, rfl⟩ := taken
  exact takeRequest_eq s i ⟨target, index⟩

/-- The requests that wait, replaced. -/
def withRequests (s : State) (i : SlotIdx) (l : List Request) : State := s.updateSlot i fun x => { x with requests := l }

theorem withRequests_context (s : State) (i : SlotIdx) (l : List Request) :
    (s.withRequests i l).slots[i].context = s.slots[i].context := by
  rw [withRequests, updateSlot_slot]

theorem withRequests_withRequests (s : State) (i : SlotIdx) (k l : List Request) :
    (s.withRequests i k).withRequests i l = s.withRequests i l := by
  simp only [withRequests, updateSlot, updateAt_updateAt]

/-- R101: a request taken reads and writes none of those that wait. -/
theorem takeRequest_withRequests (s : State) (i : SlotIdx) (l : List Request) (r : Request) :
    takeRequest i (s.withRequests i l) r = (takeRequest i s r).withRequests i l := by
  rw [takeRequest_eq, takeRequest_eq, withRequests_context]
  simp only [withRequests, updateSlot, updateAt_updateAt]

theorem foldl_withRequests (requests l : List Request) (s : State) :
    requests.foldl (takeRequest i) (s.withRequests i l) = (requests.foldl (takeRequest i) s).withRequests i l := by
  induction requests generalizing s with
  | nil => rfl
  | cons r rest ih => rw [List.foldl_cons, takeRequest_withRequests, ih, List.foldl_cons]

theorem takeRequest_requests (s : State) (i : SlotIdx) (r : Request) :
    (takeRequest i s r).slots[i].requests = s.slots[i].requests := by
  rw [takeRequest_eq]
  dsimp only
  rw [updateAt_get_self]

/-- R102: the requests are taken in the order in which they were issued. -/
theorem takeRequests_cons {r : Request} {rest : List Request} (waiting : s.slots[i].requests = r :: rest) :
    s.takeRequests i = (takeRequest i (s.withRequests i rest) r).takeRequests i := by
  have left : (takeRequest i (s.withRequests i rest) r).slots[i].requests = rest := by
    rw [takeRequest_requests, withRequests, updateSlot_slot]
  have fold : ∀ (t : State) (l : List Request), t.slots[i].requests = l →
      t.takeRequests i = (l.foldl (takeRequest i) t).withRequests i [] := fun t l asked => by rw [← asked]; rfl
  rw [fold s _ waiting, fold _ _ left, takeRequest_withRequests, foldl_withRequests, withRequests_withRequests,
    List.foldl_cons]

/-- R99, R100, R108: all that the step of a slot writes. -/
theorem stepSlot_eq (s : State) (i : SlotIdx) (c : SlotContext) (p : Profile) (context : c = s.slots[i].context)
    (profile : p = s.latching[c.governing]) :
    s.stepSlot i =
      { s with
        slots := updateAt s.slots i fun x => { x with context := c.step p }
        entered := updateAt s.entered c.governing fun b => b || c.stepEnters
        events := if c.stepFinishes p then s.events.raise s.timing.periodCounter .transitionDone i 0#16 else s.events } := by
  subst context profile
  have slots : (updateAt s.slots i fun x =>
      { x with context := s.slots[i].context.step s.latching[s.slots[i].context.governing] }) =
        updateAt s.slots i fun x => { x with context := x.context.step s.latching[s.slots[i].context.governing] } :=
    updateAt_congr _ _ rfl
  rw [slots]
  unfold stepSlot
  dsimp only
  split <;> rfl

end State

/-! ### The row of a making -/

/-- R97: of the works of the slot the making of its context comes next, and no command comes before it. -/
structure MakingNext (s : State) (i : SlotIdx) : Prop where
  due : s.slots[i].due = ⟨false, false, false, true, s.slots[i].due.mix⟩
  commit : NoCommitDue s
  switch : NoSwitchFor s i

namespace MakingNext

variable {s t : State} {i : SlotIdx}

theorem transition_due (next : MakingNext s i) : s.slots[i].due.transition = true := by rw [next.due]

/-- R97: nothing comes before the making. -/
theorem before_past (next : MakingNext s i) : (s.ensureCheck i).ensureProtect i = s :=
  State.protected_of_taken next.commit (d := ⟨false, false, false, true, s.slots[i].due.mix⟩) next.due

/-- R126, R154: the processor's choice is no SWITCH of the slot. -/
theorem switchFirst (next : MakingNext s i) : s.switchFirst i = s := by
  have unchosen : s.switchWaits i = false := by
    refine Bool.eq_false_iff.mpr fun waits => ?_
    obtain ⟨m, chosen, moves⟩ := (Option.any_eq_true ..).mp waits
    obtain ⟨older, newer, turn⟩ := choice_iff.mp chosen
    simp only [switchMoves, Bool.and_eq_true, decide_eq_true_eq] at moves
    obtain ⟨⟨⟨⟨code, -⟩, -⟩, slot⟩, -⟩ := moves
    exact next.switch older newer m turn code (argFin_eq.mp slot)
  rw [State.switchFirst, if_pos next.transition_due, next.before_past]
  exact if_neg (by rw [unchosen]; exact Bool.false_ne_true)

/-- R97: the row makes the context. -/
theorem transition (next : MakingNext s i) :
    exec (.boundary (.only (.transition i))) s =
      .next ((s.makeContext i).updateDue i fun d => { d with transition := false }) := by
  have work : (s.switchFirst i).ensureStep i = (s.makeContext i).updateDue i fun d => { d with transition := false } := by
    rw [next.switchFirst, State.ensureStep, if_pos next.transition_due, next.before_past]
  exact congrArg Host.Outcome.next work

/-- What the making waits for rests on the time, the commit unit, the processor and the slot's works. -/
theorem congr (next : MakingNext s i) (timing : t.timing = s.timing) (commit : t.pendingCommit = s.pendingCommit)
    (channel : t.channel = s.channel) (egress : t.egress = s.egress) (due : t.slots[i].due = s.slots[i].due) :
    MakingNext t i where
  due := by rw [due]; exact next.due
  commit := by
    unfold NoCommitDue
    rw [timing, commit]
    exact next.commit
  switch older newer m turn := by
    refine next.switch older newer m ⟨?_, ?_, ?_, ?_, ?_, ?_⟩
    · exact timing ▸ turn.boundary
    · exact channel ▸ turn.turn
    · exact channel ▸ turn.executing
    · exact channel ▸ turn.queue
    · exact egress ▸ turn.heldBack
    · exact egress ▸ turn.room

/-- R102: the making takes the first of the requests on the slot in which the others wait. -/
theorem transition_takeRequest (next : MakingNext s i) (passed : s.slots[i].settleFailed = false) {r : Request}
    {rest : List Request} (waiting : s.slots[i].requests = r :: rest) :
    exec (.boundary (.only (.transition i))) s =
      exec (.boundary (.only (.transition i))) (State.takeRequest i (s.withRequests i rest) r) := by
  have taken := State.takeRequest_eq (s.withRequests i rest) i r
  have slot : (State.takeRequest i (s.withRequests i rest) r).slots[i].due = s.slots[i].due ∧
      (State.takeRequest i (s.withRequests i rest) r).slots[i].settleFailed = s.slots[i].settleFailed := by
    rw [taken]
    dsimp only
    rw [updateAt_get_self, State.withRequests, State.updateSlot_slot]
    exact ⟨rfl, rfl⟩
  have next' : MakingNext (State.takeRequest i (s.withRequests i rest) r) i := by
    refine next.congr ?_ ?_ ?_ ?_ slot.1 <;> rw [taken] <;> rfl
  rw [next.transition, next'.transition, State.makeContext, State.makeContext, State.applySettle_of_passed passed,
    State.applySettle_of_passed (slot.2.trans passed), State.takeRequests_cons waiting]

/-- R99: where nothing waits for the making but the step, the row is the step. -/
theorem step (next : MakingNext s i) (passed : s.slots[i].settleFailed = false) (none : s.slots[i].requests = [])
    {c : SlotContext} {p : Profile} (context : c = s.slots[i].context) (profile : p = s.latching[c.governing]) :
    exec (.boundary (.only (.transition i))) s = .next
      { s with
        slots := updateAt s.slots i fun z => { z with context := c.step p, due := { z.due with transition := false } }
        entered := updateAt s.entered c.governing fun b => b || c.stepEnters
        events := if c.stepFinishes p then s.events.raise s.timing.periodCounter .transitionDone i 0#16 else s.events } := by
  rw [next.transition, State.makeContext, State.applySettle_of_passed passed, State.takeRequests_of_none none,
    s.stepSlot_eq i c p context profile]
  simp only [State.updateDue, State.updateSlot, updateAt_updateAt]

/-- R99: the row PHASE_END is the row of the making, where the step meets a phase at its end. -/
theorem phaseEnd (next : MakingNext s i) (passed : s.slots[i].settleFailed = false) (none : s.slots[i].requests = [])
    (ends : s.slots[i].context.phaseEnds = true) : exec (.phaseEnd i) s = exec (.boundary (.only (.transition i))) s := by
  have due : s.phaseEndDue i = true := by
    rw [State.phaseEndDue, next.switchFirst, State.applySettle_of_passed passed, State.takeRequests_of_none none,
      next.transition_due, ends, Bool.and_self]
  have row : (if s.phaseEndDue i then (s.switchFirst i).ensureStep i else s) = (s.switchFirst i).ensureStep i := if_pos due
  exact congrArg Host.Outcome.next row

section
variable {c d : SlotContext} {p : Profile} (next : MakingNext s i) (passed : s.slots[i].settleFailed = false)
  (none : s.slots[i].requests = []) (context : c = s.slots[i].context) (profile : p = s.latching[c.governing])
include next passed none context profile

/-- R99: a step that stays in its phase. -/
theorem step_stays (stays : c.phase ≠ .steady → c.phasePosition < c.phaseLength) :
    exec (.boundary (.only (.transition i))) s = .next
      { s with
        slots := updateAt s.slots i fun z => { z with context := c.step p, due := { z.due with transition := false } } } := by
  rw [next.step passed none context profile, SlotContext.stepEnters_of_stays stays, SlotContext.stepFinishes_of_stays stays,
    updateAt_or_false]
  rfl

variable (moving : c.phase ≠ .steady) (ends : c.phaseLength ≤ c.phasePosition) (passes : c.nextPhase p = d)
include moving ends passes

/-- R99: a step that meets a phase at its end, with the phase it passes to. -/
theorem phaseEnd_eq :
    exec (.phaseEnd i) s = .next
      { s with
        slots := updateAt s.slots i fun z => { z with context := d.fixLevel, due := { z.due with transition := false } }
        entered := updateAt s.entered c.governing fun b => b || decide (c.phase ≠ .settle)
        events := if d.phase = .steady then s.events.raise s.timing.periodCounter .transitionDone i 0#16 else s.events } := by
  have atEnd := SlotContext.phaseEnds_eq_true moving ends
  have stepped : c.step p = d.fixLevel := by rw [SlotContext.step, SlotContext.advance_ends moving ends, passes]
  have enters : c.stepEnters = decide (c.phase ≠ .settle) := by rw [SlotContext.stepEnters, atEnd, Bool.true_and]
  have finishes : c.stepFinishes p = decide (d.phase = .steady) := by
    rw [SlotContext.stepFinishes, SlotContext.advance_ends moving ends, passes, decide_eq_true moving, Bool.true_and]
  rw [next.phaseEnd passed none (context ▸ atEnd), next.step passed none context profile, stepped, enters, finishes]
  simp only [decide_eq_true_eq]

/-- R98: the step enters another phase and latches its length. -/
theorem phaseEnd_enters (on : d.phase ≠ .steady) :
    exec (.phaseEnd i) s = .next
      { s with
        slots := updateAt s.slots i fun z => { z with context := d.fixLevel, due := { z.due with transition := false } }
        entered := s.entered.set c.governing.val true c.governing.isLt } := by
  have unsettled : c.phase ≠ .settle := fun phase => by
    rw [SlotContext.nextPhase_settle phase] at passes
    exact on (passes ▸ rfl)
  rw [next.phaseEnd_eq passed none context profile moving ends passes, decide_eq_true unsettled, updateAt_or_true, if_neg on]

/-- R99, R108: the step brings the slot into STEADY. -/
theorem phaseEnd_finishes (done : d.phase = .steady) :
    exec (.phaseEnd i) s = .next
      { s with
        slots := updateAt s.slots i fun z => { z with context := d.fixLevel, due := { z.due with transition := false } }
        entered := if c.phase = .settle then s.entered else s.entered.set c.governing.val true c.governing.isLt
        events := s.events.raise s.timing.periodCounter .transitionDone i 0#16 } := by
  rw [next.phaseEnd_eq passed none context profile moving ends passes, if_pos done]
  by_cases phase : c.phase = .settle
  · rw [if_pos phase, decide_eq_false (not_not.mpr phase), updateAt_or_false]
  · rw [if_neg phase, decide_eq_true phase, updateAt_or_true]

end

end MakingNext

end Sys2Proof.Machine

namespace Sys2Proof.Proofs
open Machine

/-- Settles O28: the check writes what it finds into the slot, and a failed check is all that the first stage of the making
takes, so the making goes on from the STEADY that stage leaves. -/
theorem settleCheckFailsOnLostSources : Obligations.SettleCheckFailsOnLostSources := by
  intro s i
  have check : s.slots[i].due.check = true →
      exec (.boundary (.only (.check i))) s = .next ((s.checkSettle i).updateDue i fun d => { d with check := false }) :=
    fun due => congrArg Host.Outcome.next (if_pos due)
  refine ⟨fun due phase lost => ?_, fun due sound => ?_, fun u due none switch failed phase made => ?_⟩
  · rw [check due, State.checkSettle_of_lost phase lost, State.updateDue, State.updateSlot, State.raise_slots,
      State.updateSlot_slots, updateAt_updateAt]
    rfl
  · rw [check due, State.checkSettle_of_sound sound]
    rfl
  · have next : MakingNext s i := ⟨due, none, switch⟩
    have settled : s.applySettle i = u := (State.applySettle_of_failed failed phase).trans made.symm
    have slot : u.slots[i] = { s.slots[i] with settleFailed := false, context := s.slots[i].context.failSettle } := by
      rw [← settled, State.applySettle_of_failed failed phase, State.updateSlot_slot]
    have next' : MakingNext u i := next.congr (by rw [made]) (by rw [made]) (by rw [made]) (by rw [made]) (by rw [slot])
    have again : u.applySettle i = u := State.applySettle_of_passed (by rw [slot])
    rw [next.transition, next'.transition, State.makeContext, State.makeContext, settled, again]

/-- Settles O30: a request, by the phase it finds and by whether it names the course of the slot; of the requests that wait the
making takes the first on the slot in which the others wait. -/
theorem retargetFollowsTable25 : Obligations.RetargetFollowsTable25 := by
  refine ⟨fun s i target index c fo r become enter context length least reaches becomes enters => ?_,
    fun s i r rest due none switch passed waiting => ?_⟩
  · subst context length
    obtain rfl : become = fun d => { s with slots := updateAt s.slots i fun x => { x with context := d } } := funext becomes
    obtain rfl : enter = fun d =>
        { s with
          slots := updateAt s.slots i fun x => { x with context := d }
          entered := s.entered.set index.val true index.isLt } := funext enters
    have left : reversalPeriods s.slots[i].context.level s.latching[index].fadeOut.val = r :=
      SlotContext.reversalPeriods_eq least reaches
    refine ⟨fun idle => ?_, fun phase moves => ?_, fun phase moves => ?_, fun phase moves => ?_, fun phase moves => ?_⟩
    · rw [State.takeRequest_of (SlotContext.request_idle idle), updateAt_or_false]
      rfl
    · have moves : s.slots[i].context.requestIdle target = false := by
        rw [SlotContext.requestIdle, SlotContext.course, if_pos phase, moves]
      rw [State.takeRequest_of (SlotContext.request_steady phase moves), updateAt_or_true]
      rfl
    · have moving : s.slots[i].context.phase ≠ .steady := by
        rcases phase with phase | phase <;> rw [phase] <;> exact Phase.noConfusion
      rw [← SlotContext.requestIdle_of_moving moving] at moves
      rw [State.takeRequest_of (SlotContext.request_leaving phase moves), updateAt_or_false]
      rfl
    · rw [← SlotContext.requestIdle_of_moving (by rw [phase]; exact Phase.noConfusion)] at moves
      rw [State.takeRequest_of (SlotContext.request_fadeIn phase moves), updateAt_or_true, SlotContext.reverse, left]
      rfl
    · rw [← SlotContext.requestIdle_of_moving (by rw [phase]; exact Phase.noConfusion)] at moves
      rw [State.takeRequest_of (SlotContext.request_settle phase moves), updateAt_or_true]
      rfl
  · have next : MakingNext s i := ⟨due, none, switch⟩
    exact next.transition_takeRequest passed waiting

/-- Settles O32: with its check, evaluation and requests past, the making is the step; a step that stays in its phase moves its
position and level, and one that ends it passes to the next phase whose length is not 0. -/
theorem stepAdvancesTheSlot : Obligations.StepAdvancesTheSlot := by
  intro s i c p arrive enter due none switch passed unasked context profile arrives enters
  have next : MakingNext s i := ⟨due, none, switch⟩
  obtain rfl : arrive = fun d =>
      { s with slots := updateAt s.slots i fun z => { z with context := d, due := { z.due with transition := false } } } :=
    funext arrives
  obtain rfl : enter = fun d =>
      { s with
        slots := updateAt s.slots i fun z => { z with context := d, due := { z.due with transition := false } }
        entered := s.entered.set c.governing.val true c.governing.isLt } := funext enters
  refine ⟨fun steady => ?_, fun moving before => ?_, fun moving ends => ⟨fun phase gap => ?_, fun phase fadeIn => ?_,
    fun sounding phase settle => ?_, fun sounding phase => ?_, ?_⟩⟩
  · rw [next.step_stays passed unasked context profile (absurd steady), SlotContext.step_steady steady]
  · rw [next.step_stays passed unasked context profile fun _ => before, SlotContext.step_within moving before]
    cases phase : c.phase <;> rfl
  · rw [next.phaseEnd_enters passed unasked context profile moving ends (SlotContext.nextPhase_gap phase gap)
      Phase.noConfusion]
    rfl
  · have passes := (SlotContext.nextPhase_pastGap phase).trans (SlotContext.enterFadeIn_of_pos fadeIn)
    rw [next.phaseEnd_enters passed unasked context profile moving ends passes Phase.noConfusion]
    rfl
  · have passes := (SlotContext.nextPhase_pastFadeIn phase).trans (SlotContext.enterSettle_of_pos settle)
    rw [next.phaseEnd_enters passed unasked context profile moving ends passes Phase.noConfusion]
    rfl
  · rw [next.phaseEnd_finishes passed unasked context profile moving ends (SlotContext.nextPhase_pastSettle phase) rfl]
    split <;> rfl
  · exact (next.phaseEnd passed unasked (context ▸ SlotContext.phaseEnds_eq_true moving ends)).symm

end Sys2Proof.Proofs
end

section
/-! PROOFS. The law of the protection records (R114, R123): a notice, an evaluation and a SWITCH leave a slot's record lawful, a
commit leaves each replaced slot its notice, and every other operation a step is made of leaves the records alone. -/

namespace Sys2Proof.Machine

/-! ### One protection record -/

namespace Protection

variable {r : RouteRecord} {p : Protection}

/-- R117, R119, R120, R123: a move leaves no hold, timer or double loss. -/
theorem moved_sound {select : ListSelect} (backed : select = .backup → r.backup.isSome) : (moved select).sound r :=
  ⟨backed, Bool.noConfusion, Bool.noConfusion, Bool.noConfusion⟩

/-- R126: a SWITCH to the backup alone sets the hold. -/
theorem switched_sound {select : ListSelect} (backed : select = .backup → r.backup.isSome) :
    (switchedProtection select).sound r :=
  ⟨backed, of_decide_eq_true, Bool.noConfusion, Bool.noConfusion⟩

/-- R116: a slot without a backup list has no timer. -/
theorem sound.untimed (h : p.sound r) : Protection.sound r { p with wtrTimer := none } := by
  obtain ⟨backed, hold, -, loss⟩ := h
  exact ⟨backed, hold, Bool.noConfusion, loss⟩

/-- R121. -/
theorem sound.stay (h : p.sound r) : Protection.sound r { p with wtrTimer := none, doubleLoss := false } := by
  obtain ⟨backed, hold, -, -⟩ := h
  exact ⟨backed, hold, Bool.noConfusion, Bool.noConfusion⟩

/-- R120: the timer runs on the backup. -/
theorem sound.wait (h : p.sound r) (selected : p.selected = .backup) (n : Nat) :
    Protection.sound r { p with wtrTimer := some n, doubleLoss := false } := by
  obtain ⟨backed, hold, -, -⟩ := h
  exact ⟨backed, hold, fun _ => selected, Bool.noConfusion⟩

/-- R118, R122: two lists are lost only where there are two. -/
theorem sound.lose (h : p.sound r) (two : r.backup.isSome) :
    Protection.sound r { p with wtrTimer := none, doubleLoss := true } := by
  obtain ⟨backed, hold, -, -⟩ := h
  exact ⟨backed, hold, Bool.noConfusion, fun _ => two⟩

end Protection

/-- R86, R123: a notice selects the backup only of a record that has one. -/
theorem State.noticeSelect_backed {s : State} {r : RouteRecord} (selected : s.noticeSelect r = .backup) :
    r.backup.isSome := by
  unfold noticeSelect at selected
  split at selected
  · next hb => rw [hb]; rfl
  · exact ListSelect.noConfusion selected

theorem WritesLanes.routes {s t : State} (h : WritesLanes s t) : t.routes = s.routes := by
  obtain ⟨_, _, _, _, rfl⟩ := h
  rfl

namespace ProtectionSound

variable {s t : State} {i : SlotIdx}

/-! ### What leaves the records alone -/

/-- The law rests on the active records, the protection records and the notices. -/
theorem of_records (h : ProtectionSound s) (active : ∀ j : SlotIdx, t.routes[j].active = s.routes[j].active)
    (protection : ∀ j : SlotIdx, t.slots[j].protection = s.slots[j].protection)
    (notice : ∀ j : SlotIdx, t.slots[j].due.notice = s.slots[j].due.notice) : ProtectionSound t := fun j => by
  rw [active, protection, notice]
  exact h j

theorem of_tables (h : ProtectionSound s) (routes : t.routes = s.routes) (slots : t.slots = s.slots) :
    ProtectionSound t :=
  h.of_records (fun j => by rw [routes]) (fun j => by rw [slots]) fun j => by rw [slots]

/-- Only the ports, the channel, the egress ports and the event unit are written. -/
theorem of_lanes (h : ProtectionSound s) (lanes : WritesLanes s t) : ProtectionSound t :=
  h.of_tables lanes.routes lanes.slots

/-! ### What one slot's work keeps -/

/-- An update of one slot that leaves it lawful. -/
theorem of_slot {f : Slot → Slot} {events : EventUnit} (h : ProtectionSound s)
    (own : (f s.slots[i]).due.notice = true ∨ (f s.slots[i]).protection.sound s.routes[i].active) :
    ProtectionSound { s with slots := updateAt s.slots i f, events := events } := fun j => by
  dsimp only
  by_cases hij : i = j
  · subst hij
    rw [updateAt_get_self]
    exact own
  · rw [updateAt_get_ne _ _ hij]
    exact h j

/-- An update of one slot that leaves the notice alone, and a lawful record lawful. -/
theorem of_update {f : Slot → Slot} {events : EventUnit} (h : ProtectionSound s)
    (notice : (f s.slots[i]).due.notice = s.slots[i].due.notice)
    (sound : s.slots[i].protection.sound s.routes[i].active → (f s.slots[i]).protection.sound s.routes[i].active) :
    ProtectionSound { s with slots := updateAt s.slots i f, events := events } :=
  h.of_slot ((h i).imp notice.trans sound)

/-- R123: a notice leaves the record of a move. -/
theorem takeNotice (h : ProtectionSound s) (i : SlotIdx) : ProtectionSound (s.takeNotice i) := by
  rw [s.takeNotice_writes i]
  exact h.of_slot (.inr (Protection.moved_sound State.noticeSelect_backed))

theorem moveSlot (h : ProtectionSound s) {select : ListSelect} (kind : EventKind)
    (backed : select = .backup → s.routes[i].active.backup.isSome) : ProtectionSound (s.moveSlot i select kind) := by
  rw [s.moveSlot_eq i select kind]
  exact h.of_update rfl fun _ => Protection.moved_sound backed

theorem stayAvailable (h : ProtectionSound s) (i : SlotIdx) : ProtectionSound (s.stayAvailable i) :=
  h.of_update rfl fun sound => sound.stay

theorem doubleLose (h : ProtectionSound s) (two : s.routes[i].active.backup.isSome) : ProtectionSound (s.doubleLose i) := by
  unfold State.doubleLose
  dsimp only
  split <;> exact h.of_update rfl fun sound => sound.lose two

/-- R120: a slot on its backup. -/
theorem restoreSlot (h : ProtectionSound s) (selected : s.slots[i].protection.selected = .backup) :
    ProtectionSound (s.restoreSlot i) := by
  unfold State.restoreSlot
  split
  · split
    · exact h.moveSlot .revert ListSelect.noConfusion
    · exact h.of_update rfl fun sound => sound.wait selected _
  · exact h.stayAvailable i

/-- R116, Table 27: each row leaves the record lawful. -/
theorem evaluateSlot (h : ProtectionSound s) (i : SlotIdx) : ProtectionSound (s.evaluateSlot i) := by
  unfold State.evaluateSlot
  dsimp only
  split
  · split
    · exact h.stayAvailable i
    · exact h.of_update rfl fun sound => sound.untimed
  · next two =>
    have two : s.routes[i].active.backup.isSome := by rw [two]; rfl
    split
    · exact h.stayAvailable i
    · split
      · exact h.moveSlot .failover fun _ => two
      · exact h.doubleLose two
  · next selected two =>
    have two : s.routes[i].active.backup.isSome := by rw [two]; rfl
    split
    · exact h.restoreSlot selected
    · split
      · exact h.moveSlot .forcedRevert ListSelect.noConfusion
      · exact h.doubleLose two
  · exact h

/-- R125, R126: a SWITCH moves a slot that has a backup list. -/
theorem switchSlot (h : ProtectionSound s) {select : ListSelect} (possible : switchPossible s i select = true) :
    ProtectionSound (switchSlot s i select) := by
  unfold Machine.switchSlot
  split
  · exact h
  · have two : s.routes[i].active.backup.isSome := (Bool.and_eq_true _ _ ▸ possible).1
    have switched : ProtectionSound (s.updateProtection i fun _ => switchedProtection select) :=
      h.of_update rfl fun _ => Protection.switched_sound fun _ => two
    exact switched.of_update rfl id

/-! ### Commits, resets and boundaries -/

/-- R85, R86: every entry a commit replaces leaves its slot a notice. -/
theorem takeCommit (h : ProtectionSound s) (c : PendingCommit) : ProtectionSound (s.takeCommit c) := fun j => by
  obtain ⟨slots, routes, hw, each⟩ := s.takeCommit_writes c
  obtain ⟨slot, route⟩ := each j
  rw [hw]
  dsimp only
  rw [slot, route]
  split
  · exact .inl rfl
  · exact h j

/-- R75: COPY_ACTIVE writes no active record. -/
theorem copyActive (h : ProtectionSound s) (mask : BitVec 4) : ProtectionSound (s.copyActive mask) := by
  unfold State.copyActive
  refine h.of_records (fun j => ?_) (fun _ => rfl) fun _ => rfl
  dsimp only
  rw [Fin.getElem_fin, Vector.getElem_ofFn]
  split <;> rfl

/-- R73: and nor does STAGE_ENTRY. -/
theorem stageEntry (h : ProtectionSound s) (i : SlotIdx) (r : RouteRecord) : ProtectionSound (s.stageEntry i r) := by
  refine h.of_records (fun j => ?_) (fun _ => rfl) fun _ => rfl
  rw [State.stageEntry, State.updateRoute_routes]
  by_cases hij : i = j
  · subst hij
    rw [updateAt_get_self]
  · rw [updateAt_get_ne _ _ hij]

/-- A boundary makes no notice due, and takes none. -/
theorem armWorks (h : ProtectionSound s) : ProtectionSound s.armWorks := by
  refine h.of_records (fun _ => rfl) (fun j => ?_) fun j => ?_ <;> rw [State.armWorks_slot]
  rfl

theorem fixTiming (h : ProtectionSound s) : ProtectionSound s.fixTiming := by
  obtain ⟨timing, events, hw⟩ := s.fixTiming_writes
  exact h.of_tables (by rw [hw]) (by rw [hw])

/-- R129: every slot takes the reset record. -/
theorem softReset (s : State) : ProtectionSound s.softReset := by
  have values : ProtectionSound (s.softResetValues.raise .resetDone 0 ResetCause.soft.code) := fun j => by
    have slot : (s.softResetValues.raise .resetDone 0 ResetCause.soft.code).slots[j] = s.softResetSlot j :=
      Vector.getElem_ofFn j.isLt
    rw [slot]
    exact .inr (resetProtection_sound _)
  exact values.armWorks.fixTiming

/-- R138: a clear of the meters. -/
theorem clearMeters (h : ProtectionSound s) (e : PortIdx) (clear : Bool) : ProtectionSound (clearMeters s e clear) := by
  unfold Machine.clearMeters
  split
  · refine h.of_records (fun _ => rfl) (fun j => ?_) fun j => ?_
    all_goals
      dsimp only
      rw [Fin.getElem_fin, Vector.getElem_ofFn]
      split <;> rfl
  · exact h

/-! ### R114: the law of the protection records -/

theorem blocks : KeptByBlocks ProtectionSound where
  queue _ _ h := h.of_tables rfl rfl
  afterReset := protectionSound_afterReset
  softReset s _ := softReset s
  passTicks _ _ h := h.of_tables rfl rfl
  beginBoundary s h := (h.of_tables (t := (s.beginPeriod.updateEvents EventUnit.ageRecords).armPicks) rfl rfl).armWorks
  timing _ h := h.fixTiming
  commit _ c _ h := h.takeCommit c
  window s p h := by
    obtain ⟨f, events, hw⟩ := s.takeWindow_writes p
    exact h.of_lanes ⟨_, _, _, _, hw⟩
  loseSource _ _ _ h := h.of_lanes ⟨_, _, _, _, rfl⟩
  silence s p h := by
    obtain ⟨f, events, hw⟩ := s.takeSilence_writes p
    exact h.of_lanes ⟨_, _, _, _, hw⟩
  sent s e h := by
    obtain ⟨f, processor, events, hw⟩ := s.completeSending_writes e
    exact h.of_lanes ⟨_, _, _, _, hw⟩
  reportTimeout _ _ h := h.of_lanes ⟨_, _, _, _, rfl⟩
  pick s p h := by
    obtain ⟨f, events, hw⟩ := s.pickFrame_writes p
    exact h.of_lanes ⟨_, _, _, _, hw⟩
  settle s i h := by
    obtain ⟨failed, events, hw⟩ := s.checkSettle_writes i
    rw [hw]
    exact h.of_update rfl id
  notice _ i h := h.takeNotice i
  evaluate _ i h := h.evaluateSlot i
  makeContext s i h := by
    obtain ⟨f, entered, events, hw⟩ := s.makeContext_writes i
    rw [hw]
    exact (h.of_update (f := fun x => { x with context := f x, settleFailed := false, requests := [] })
      (events := events) rfl id).of_tables rfl rfl
  mixSlot s i h := by
    obtain ⟨meters, output, events, hw⟩ := s.mixSlot_writes i
    rw [hw]
    exact h.of_update rfl id
  due s i f notice h := h.of_update (notice _) id
  monitor s m h := by
    obtain ⟨f, events, hw⟩ := s.evaluateMonitor_writes m
    exact h.of_tables (by rw [hw]) (by rw [hw])
  pickMessage s e _ h := by
    obtain ⟨f, events, hw⟩ := s.pickMessage_writes e
    exact h.of_lanes ⟨_, _, _, _, hw⟩
  serve _ _ h := h.of_lanes ⟨_, _, _, _, rfl⟩
  pass _ _ h := h.of_lanes ⟨_, _, _, _, rfl⟩
  sendFrame _ _ h := h.of_lanes ⟨_, _, _, _, rfl⟩
  candidate s p n f _ h := by
    unfold State.examineCandidate
    split <;> exact h.of_lanes ⟨_, _, _, _, rfl⟩
  confirming s p f _ h := h.of_lanes (.examineConfirming s p f)
  arrival s p f _ _ h := h.of_lanes ((WritesLanes.updatePort s p _).trans (.takeArrival _ p f _))
  crcError _ _ _ h := h.of_lanes ⟨_, _, _, _, rfl⟩
  missing s p _ h := h.of_lanes (.examineMissing s p)
  taken _ _ _ _ _ h := h.of_lanes ⟨_, _, _, _, rfl⟩
  endTurn _ h := h.of_lanes ⟨_, _, _, _, rfl⟩
  respond _ _ _ _ _ h := h.of_lanes ⟨_, _, _, _, rfl⟩
  halt _ h := h.of_lanes ⟨_, _, _, _, rfl⟩
  control s p _ _ h := by
    unfold moveControl
    split
    · exact h
    · exact h.of_lanes ⟨_, _, _, _, rfl⟩
  enableEgress s e h := by
    unfold enableEgress
    split
    · exact h
    · exact h.of_lanes ⟨_, _, _, _, rfl⟩
  disableEgress s e _ h := by
    unfold disableEgress
    split
    · obtain ⟨f, processor, events, sent⟩ := s.completeSending_writes e
      obtain ⟨events', abandoned⟩ := (s.completeSending e).abandonSending_writes e
      rw [abandoned, sent]
      exact h.of_lanes ⟨_, _, _, _, rfl⟩
    · exact h
  configurePort s p enable x _ h := by
    rw [configurePort_eq]
    exact h.of_lanes ⟨_, _, _, _, rfl⟩
  restartPort s p h := by
    rw [restartPort_eq]
    exact h.of_lanes (.updatePort s p _)
  clearCounters s p clear h := by
    cases clear
    · exact h
    · exact h.of_lanes (.updatePort s p _)
  source _ _ h := h.of_tables rfl rfl
  stage _ _ i r _ h := h.stageEntry i r
  copyActive _ mask h := h.copyActive mask
  pendingCommit _ _ h := h.of_tables rfl rfl
  profile s i x h := h.of_tables (by rw [s.writeProfile_writes i x]) (by rw [s.writeProfile_writes i x])
  clearClip s i clear h := by
    unfold clearClipCounter
    split
    · exact h.of_update rfl id
    · exact h
  clearMeters _ e clear h := h.clearMeters e clear
  switch _ _ _ possible h := h.switchSlot possible
  monitorConfig _ _ _ h := h.of_tables rfl rfl
  eventConfig _ _ _ _ h := h.of_tables rfl rfl
  acknowledge _ _ h := h.of_tables rfl rfl
  clearAlarms _ _ h := h.of_tables rfl rfl
  pinMask _ _ h := h.of_tables rfl rfl

end ProtectionSound

end Sys2Proof.Machine

namespace Sys2Proof.Proofs
open Machine

/-- Settles O56: a slot's record is written by its notice, by its evaluation, which follows Table 27, by a SWITCH, which needs a
backup list, and by the resets; an active record by a commit alone, which leaves the slot its notice. -/
theorem stepsKeepProtectionSound : Obligations.StepsKeepProtectionSound :=
  fun _ _ sound taken => ProtectionSound.blocks.step_keeps sound taken

end Sys2Proof.Proofs
end

section
/-! PROOFS. The evaluation of a slot (R116 to R122, Table 27), row by row, and the row REVERT. -/

namespace Sys2Proof.Machine

namespace State

variable {s : State} {i : SlotIdx} {b : MixList}

/-- R113. -/
theorem available_eq_false {l : MixList} : s.available l = false ↔ ¬Available s l := by
  rw [← Bool.not_eq_true, available_iff]

/-! ### The rows of Table 27 -/

theorem evaluateSlot_primary (selected : s.slots[i].protection.selected = .primary)
    (primary : Available s s.routes[i].active.primary) : s.evaluateSlot i = s.stayAvailable i := by
  unfold evaluateSlot
  dsimp only
  rw [selected, available_iff.mpr primary]
  cases s.routes[i].active.backup <;> rfl

theorem evaluateSlot_alone (selected : s.slots[i].protection.selected = .primary)
    (primary : ¬Available s s.routes[i].active.primary) (one : s.routes[i].active.backup = none) :
    s.evaluateSlot i = s.updateProtection i fun x => { x with wtrTimer := none } := by
  unfold evaluateSlot
  dsimp only
  rw [selected, available_eq_false.mpr primary, one]
  rfl

theorem evaluateSlot_failover (selected : s.slots[i].protection.selected = .primary)
    (primary : ¬Available s s.routes[i].active.primary) (two : s.routes[i].active.backup = some b)
    (backup : Available s b) : s.evaluateSlot i = s.moveSlot i .backup .failover := by
  unfold evaluateSlot
  dsimp only
  rw [selected, available_eq_false.mpr primary, two]
  exact if_pos (available_iff.mpr backup)

theorem evaluateSlot_lost (primary : ¬Available s s.routes[i].active.primary)
    (two : s.routes[i].active.backup = some b) (backup : ¬Available s b) : s.evaluateSlot i = s.doubleLose i := by
  have lost : ¬s.available b = true := mt available_iff.mp backup
  unfold evaluateSlot
  dsimp only
  rw [available_eq_false.mpr primary, two]
  cases s.slots[i].protection.selected <;> exact if_neg lost

theorem evaluateSlot_forced (selected : s.slots[i].protection.selected = .backup)
    (primary : Available s s.routes[i].active.primary) (two : s.routes[i].active.backup = some b)
    (backup : ¬Available s b) : s.evaluateSlot i = s.moveSlot i .primary .forcedRevert := by
  unfold evaluateSlot
  dsimp only
  rw [selected, available_iff.mpr primary, two]
  exact if_neg (mt available_iff.mp backup)

theorem evaluateSlot_backup (selected : s.slots[i].protection.selected = .backup)
    (two : s.routes[i].active.backup = some b) (backup : Available s b) : s.evaluateSlot i = s.restoreSlot i := by
  unfold evaluateSlot
  dsimp only
  rw [selected, two]
  exact if_pos (available_iff.mpr backup)

/-- R120: the three conditions of a slot that waits to restore. -/
theorem waitsToRestore_iff : s.waitsToRestore i = true ↔
    Available s s.routes[i].active.primary ∧ s.routes[i].active.revertMode = .revert ∧
      s.slots[i].protection.held = false := by
  rw [waitsToRestore, Bool.and_eq_true, Bool.and_eq_true, available_iff, decide_eq_true_eq, Bool.not_eq_true', and_assoc]

/-- R121: where one of them fails, the slot stays on its backup. -/
theorem restoreSlot_stays (stays : ¬Available s s.routes[i].active.primary ∨ s.routes[i].active.revertMode = .none ∨
    s.slots[i].protection.held = true) : s.restoreSlot i = s.stayAvailable i := by
  refine if_neg fun waits => ?_
  obtain ⟨primary, mode, hold⟩ := waitsToRestore_iff.mp waits
  rcases stays with lost | never | held
  · exact lost primary
  · exact RevertMode.noConfusion (never.symm.trans mode)
  · exact Bool.noConfusion (held.symm.trans hold)

theorem restoreSlot_waits (waits : s.waitsToRestore i = true) (counts : s.restoreCount i ≠ 0) :
    s.restoreSlot i =
      s.updateProtection i fun x => { x with wtrTimer := some (s.restoreCount i), doubleLoss := false } :=
  (if_pos waits).trans (if_neg counts)

theorem restoreSlot_reverts (waits : s.waitsToRestore i = true) (zero : s.restoreCount i = 0) :
    s.restoreSlot i = s.moveSlot i .primary .revert :=
  (if_pos waits).trans (if_pos zero)

/-! ### What a row leaves, its evaluation made -/

/-- R116: the evaluation of the boundary in progress is made. -/
def evaluationMade (s : State) (i : SlotIdx) : State := s.updateDue i fun d => { d with protect := false }

theorem updateProtection_made (s : State) (i : SlotIdx) (f : Protection → Protection) :
    (s.updateProtection i f).evaluationMade i =
      { s with
        slots := updateAt s.slots i fun z =>
          { z with protection := f s.slots[i].protection, due := { z.due with protect := false } } } := by
  simp only [evaluationMade, updateProtection, updateDue, updateSlot, updateAt_updateAt]
  rfl

theorem stayAvailable_made (s : State) (i : SlotIdx) :
    (s.stayAvailable i).evaluationMade i =
      { s with
        slots := updateAt s.slots i fun z =>
          { z with
            protection := { s.slots[i].protection with wtrTimer := none, doubleLoss := false }
            due := { z.due with protect := false } } } :=
  s.updateProtection_made i _

theorem moveSlot_made (s : State) (i : SlotIdx) (select : ListSelect) (kind : EventKind) :
    (s.moveSlot i select kind).evaluationMade i =
      { s with
        slots := updateAt s.slots i fun z =>
          { z with
            protection := ⟨select, false, none, false⟩
            requests := z.requests ++ [⟨s.routes[i].active.list select, s.routes[i].active.protectProfile⟩]
            due := { z.due with protect := false } }
        events := s.events.raise s.timing.periodCounter kind i 0#16 } := by
  rw [moveSlot_eq]
  simp only [evaluationMade, updateDue, updateSlot, updateAt_updateAt]
  rfl

/-- R122: the alarm latches at every evaluation that finds both lists lost, and the first of them raises the event. -/
theorem doubleLose_made (s : State) (i : SlotIdx) :
    (s.doubleLose i).evaluationMade i =
      { s with
        slots := updateAt s.slots i fun z =>
          { z with
            protection := { s.slots[i].protection with wtrTimer := none, doubleLoss := true }
            due := { z.due with protect := false } }
        events :=
          if s.slots[i].protection.doubleLoss then s.events.latch alarmDoubleLoss
          else (s.events.latch alarmDoubleLoss).raise s.timing.periodCounter .doubleLoss i 0#16 } := by
  have made := s.updateProtection_made i fun x => { x with wtrTimer := none, doubleLoss := true }
  unfold doubleLose
  dsimp only
  split
  · exact congrArg (fun t : State => t.latch alarmDoubleLoss) made
  · exact congrArg (fun t : State => (t.latch alarmDoubleLoss).raise .doubleLoss i 0#16) made

end State

/-! ### The row of the evaluation, and the row REVERT -/

/-- The evaluation is what comes next of the protection unit's work for the slot. -/
structure EvaluationNext (s : State) (i : SlotIdx) : Prop where
  due : s.slots[i].due.protect = true
  notice : s.slots[i].due.notice = false
  commit : NoCommitDue s

namespace EvaluationNext

variable {s : State} {i : SlotIdx}

theorem noticed (next : EvaluationNext s i) : (s.commitFor i).ensureNotice i = s := by
  rw [State.commitFor_of_none next.commit]
  exact if_neg (ne_true_of_eq_false next.notice)

theorem row (next : EvaluationNext s i) :
    exec (.boundary (.only (.protect i))) s = .next ((s.evaluateSlot i).evaluationMade i) := by
  have work : s.ensureProtect i = (s.evaluateSlot i).evaluationMade i := by
    rw [State.ensureProtect, next.noticed]
    exact if_pos next.due
  exact congrArg Host.Outcome.next work

/-- R120: the row REVERT, where the timer comes to 0. -/
theorem revert_row (next : EvaluationNext s i) {b : MixList} (selected : s.slots[i].protection.selected = .backup)
    (two : s.routes[i].active.backup = some b) (backup : Available s b) (waits : s.waitsToRestore i = true)
    (zero : s.restoreCount i = 0) : exec (.revert i) s = exec (.boundary (.only (.protect i))) s := by
  have due : s.revertDue i = true := by
    unfold State.revertDue
    dsimp only
    rw [next.noticed, next.due, selected, two, waits, zero, Option.any_some, State.available_iff.mpr backup]
    rfl
  exact congrArg Host.Outcome.next (if_pos due)

end EvaluationNext

end Sys2Proof.Machine

namespace Sys2Proof.Proofs
open Machine

/-- Settles O29: the row is the evaluation and its mark, and the evaluation is the row of Table 27 that the selected list and
the two lists' availability name; on an available backup it is the row that R120's conditions and the timer name. -/
theorem evaluationFollowsTable27 : Obligations.EvaluationFollowsTable27 := by
  intro s i r x act move due notice commit record protection acts moves
  have next : EvaluationNext s i := ⟨due, notice, commit⟩
  subst record protection
  refine ⟨fun selected primary => ?_, fun selected primary one => ?_, fun b selected primary two backup => ?_,
    fun b primary two backup => ?_, fun b selected two backup primary => ?_, fun b selected two backup stays => ?_,
    fun b n selected two backup primary mode hold count => ?_⟩
  · rw [next.row, State.evaluateSlot_primary selected primary, State.stayAvailable_made, acts]
  · rw [next.row, State.evaluateSlot_alone selected primary one, State.updateProtection_made, acts]
  · rw [next.row, State.evaluateSlot_failover selected primary two backup, State.moveSlot_made, moves, RouteRecord.list, two]
    rfl
  · rw [next.row, State.evaluateSlot_lost primary two backup, State.doubleLose_made, acts]
    rfl
  · rw [next.row, State.evaluateSlot_forced selected primary two backup, State.moveSlot_made, moves]
    rfl
  · rw [next.row, State.evaluateSlot_backup selected two backup, State.restoreSlot_stays stays, State.stayAvailable_made, acts]
  · have waits : s.waitsToRestore i = true := State.waitsToRestore_iff.mpr ⟨primary, mode, hold⟩
    obtain rfl : n = s.restoreCount i := count
    refine ⟨fun counts => ?_, fun zero => ?_⟩
    · rw [next.row, State.evaluateSlot_backup selected two backup, State.restoreSlot_waits waits counts,
        State.updateProtection_made, acts]
    · rw [next.revert_row selected two backup waits zero, and_self, next.row,
        State.evaluateSlot_backup selected two backup, State.restoreSlot_reverts waits zero, State.moveSlot_made, moves]
      rfl

end Sys2Proof.Proofs
end

section
/-! PROOFS. SWITCH (R125 to R127): its owning rule, and the protection unit's work for a slot that waits for its notice, which
comes before it. -/

namespace Sys2Proof.Machine

/-! ### The protection unit's work and the processor's turn -/

namespace State

variable {s : State}

/-- The protection unit's work, with the commit it waits for, writes the route table, the slots, the commit unit and the event
unit. -/
theorem ensureProtect_writes (s : State) (i : SlotIdx) : ∃ routes pendingCommit slots events, s.ensureProtect i =
    { s with routes := routes, pendingCommit := pendingCommit, slots := slots, events := events } := by
  have committed : ∃ routes pendingCommit slots events, s.commitFor i =
      { s with routes := routes, pendingCommit := pendingCommit, slots := slots, events := events } := by
    unfold commitFor takeCommitIfDue
    split
    · split
      · next c _ =>
        obtain ⟨slots, routes, hw, -⟩ := s.takeCommit_writes c
        exact ⟨_, _, _, _, hw⟩
      · exact ⟨_, _, _, _, rfl⟩
    · exact ⟨_, _, _, _, rfl⟩
  have noticed : ∀ t : State, ∃ slots, t.ensureNotice i = { t with slots := slots } := fun t => by
    unfold ensureNotice
    split
    · exact ⟨_, t.takeNotice_writes i⟩
    · exact ⟨_, rfl⟩
  obtain ⟨routes, pendingCommit, slots, events, hc⟩ := committed
  obtain ⟨slots', hn⟩ := noticed (s.commitFor i)
  obtain ⟨f, events', he⟩ := ((s.commitFor i).ensureNotice i).ensureEvaluation_writes i
  rw [ensureProtect, he, hn, hc]
  exact ⟨_, _, _, _, rfl⟩

/-- R123: it leaves the slot no notice. -/
theorem ensureProtect_notice (s : State) (i : SlotIdx) : (s.ensureProtect i).slots[i].due.notice = false := by
  have noticed : ∀ t : State, (t.ensureNotice i).slots[i].due.notice = false := fun t => by
    unfold ensureNotice
    split
    · rw [t.takeNotice_writes i]
      exact congrArg (fun x : Slot => x.due.notice) (updateAt_get_self t.slots i _)
    · next taken => exact Bool.eq_false_iff.mpr taken
  have evaluated : ∀ t : State, (t.ensureEvaluation i).slots[i].due.notice = t.slots[i].due.notice := fun t => by
    unfold ensureEvaluation
    split
    · obtain ⟨f, new, events, hw⟩ := t.evaluateSlot_evaluates i
      rw [updateDue_due, hw]
      exact (congrArg (fun x : Slot => x.due.notice) (updateAt_get_self t.slots i _)).trans rfl
    · rfl
  rw [ensureProtect, evaluated, noticed]

section
variable (s) (older newer : List Message) (i : SlotIdx)

theorem taken_takeCommit (c : PendingCommit) : (s.taken older newer).takeCommit c = (s.takeCommit c).taken older newer := by
  have replaced : (s.dirtyIn c.mask).foldl replaceEntry (s.taken older newer) =
      ((s.dirtyIn c.mask).foldl replaceEntry s).taken older newer :=
    List.foldl_hom (State.taken · older newer) fun _ _ => rfl
  have dirty : (s.taken older newer).dirtyIn c.mask = s.dirtyIn c.mask := rfl
  unfold takeCommit
  dsimp only
  rw [dirty, replaced]
  rfl

theorem taken_commitFor : (s.taken older newer).commitFor i = (s.commitFor i).taken older newer := by
  have due : (s.taken older newer).commitDue = s.commitDue := rfl
  have replaces : (s.taken older newer).commitReplaces i = s.commitReplaces i := rfl
  unfold commitFor takeCommitIfDue
  rw [replaces, due]
  split
  · split
    · exact s.taken_takeCommit older newer _
    · rfl
  · rfl

theorem taken_restoreSlot : (s.taken older newer).restoreSlot i = (s.restoreSlot i).taken older newer := by
  unfold restoreSlot
  rw [apply_ite (State.taken · older newer), apply_ite (State.taken · older newer)]
  rfl

theorem taken_doubleLose : (s.taken older newer).doubleLose i = (s.doubleLose i).taken older newer := by
  unfold doubleLose
  dsimp only
  rw [apply_ite (State.taken · older newer)]
  rfl

theorem taken_evaluateSlot : (s.taken older newer).evaluateSlot i = (s.evaluateSlot i).taken older newer := by
  have available : (s.taken older newer).available = s.available := rfl
  unfold evaluateSlot
  dsimp only
  rw [taken_slots, taken_routes, available, taken_doubleLose, taken_restoreSlot]
  split
  · rw [apply_ite (State.taken · older newer)]
    rfl
  · rw [apply_ite (State.taken · older newer), apply_ite (State.taken · older newer)]
    rfl
  · rw [apply_ite (State.taken · older newer), apply_ite (State.taken · older newer)]
    rfl
  · rfl

theorem taken_ensureProtect : (s.taken older newer).ensureProtect i = (s.ensureProtect i).taken older newer := by
  have noticed : ∀ t : State, (t.taken older newer).ensureNotice i = (t.ensureNotice i).taken older newer := fun t => by
    unfold ensureNotice
    rw [apply_ite (State.taken · older newer)]
    rfl
  have evaluated : ∀ t : State, (t.taken older newer).ensureEvaluation i = (t.ensureEvaluation i).taken older newer :=
    fun t => by
      unfold ensureEvaluation
      rw [apply_ite (State.taken · older newer), taken_evaluateSlot]
      rfl
  rw [ensureProtect, taken_commitFor, noticed, evaluated, ensureProtect]

end

end State

variable {s : State} {older newer : List Message} {m : Message} {i : SlotIdx} {backup : Bool}

/-- R154: the protection unit's work leaves the processor's choice as it is. -/
theorem Turn.ensureProtect (turn : Turn s older m newer) (i : SlotIdx) : Turn (s.ensureProtect i) older m newer := by
  obtain ⟨routes, pendingCommit, slots, events, hw⟩ := s.ensureProtect_writes i
  rw [hw]
  exact ⟨turn.boundary, turn.turn, turn.executing, turn.queue, turn.heldBack, turn.room⟩

/-! ### The owning rule -/

theorem switchRule_eq (length : messageLength m = 5) (slot : argByte m 3 = i.val)
    (option : argByte m 4 = if backup then 1 else 0) :
    switchRule m s = executeSwitch (noticeFirst s i) i (namedSelect backup) := by
  rw [switchRule, argFin_eq.mpr slot, argBool_eq.mpr option]
  exact if_neg (not_not.mpr length)

/-- R127: no notice waits. -/
theorem noticeFirst_of_noticed (noticed : s.slots[i].due.notice = false) : noticeFirst s i = s :=
  if_neg (ne_true_of_eq_false noticed)

theorem list_namedSelect (r : RouteRecord) (backup : Bool) :
    r.list (namedSelect backup) = if backup then r.backup.getD [] else r.primary := by
  cases backup <;> rfl

/-- R125: there is a backup list, and the list named is available. -/
theorem switchPossible_iff : switchPossible s i (namedSelect backup) = true ↔
    s.routes[i].active.backup ≠ none ∧
      Available s (if backup then s.routes[i].active.backup.getD [] else s.routes[i].active.primary) := by
  rw [switchPossible, Bool.and_eq_true, Option.isSome_iff_ne_none, State.available_iff, list_namedSelect]

/-- R126: a SWITCH to the list selected. -/
theorem switchSlot_idle {select : ListSelect} (selected : s.slots[i].protection.selected = select) :
    switchSlot s i select = s :=
  if_pos selected

/-- R126, R115: a SWITCH to the other list, and its request. -/
theorem switchSlot_moves {select : ListSelect} (other : s.slots[i].protection.selected ≠ select) :
    switchSlot s i select =
      { s with
        slots := updateAt s.slots i fun x =>
          { x with
            protection := switchedProtection select
            requests := x.requests ++ [⟨s.routes[i].active.list select, s.routes[i].active.protectProfile⟩] } } := by
  have named : (s.updateProtection i fun _ => switchedProtection select).slots[i].protection.selected = select := by
    rw [State.updateProtection, State.updateSlot_slot]
    rfl
  refine (if_neg other).trans ?_
  unfold State.protectRequest
  dsimp only
  rw [named]
  simp only [State.issueRequest, State.updateProtection, State.updateSlot, updateAt_updateAt]

end Sys2Proof.Machine

namespace Sys2Proof.Proofs
open Machine

/-- Settles O16: the row is the owning rule on the state in which the processor has taken the command; the protection unit's
work that a notice brings before it reads neither the queue nor the turn, and so can be taken before the command is. -/
theorem switchMovesTheSlot : Obligations.SwitchMovesTheSlot := by
  intro s older newer m i backup list turn control code length slot option named
  have row : ∀ v : State, Turn v older m newer → m.source = v.channel.control →
      exec (.switch m) v =
        .next ((executeSwitch (noticeFirst (v.taken older newer) i) i (namedSelect backup)).deliver m) := fun v turn control => by
    rw [← switchRule_eq length slot option]
    exact congrArg Host.Outcome.next (executeCommand_of_control turn code control _ _)
  refine ⟨fun notice => ⟨s.ensureProtect i, rfl, ?_⟩, fun noticed => ?_⟩
  · have control' : m.source = (s.ensureProtect i).channel.control := by
      obtain ⟨routes, pendingCommit, slots, events, hw⟩ := s.ensureProtect_writes i
      rw [hw]
      exact control
    have first : noticeFirst (s.taken older newer) i = (s.taken older newer).ensureProtect i := if_pos notice
    rw [row s turn control, row _ (turn.ensureProtect i) control', first, State.taken_ensureProtect,
      noticeFirst_of_noticed (by exact s.ensureProtect_notice i)]
  · have possible : switchPossible (s.taken older newer) i (namedSelect backup) = true ↔
        s.routes[i].active.backup ≠ none ∧ Available s list := by
      rw [switchPossible_iff, named]
      rfl
    rw [row s turn control, noticeFirst_of_noticed (by exact noticed), executeSwitch]
    refine ⟨fun refused => ?_, fun two available selected => ?_, fun two available selected => ?_⟩
    · rw [if_neg fun p => ?_, deliver_answer _ (by exact turn.room)]
      · rfl
      · obtain ⟨two, available⟩ := possible.mp p
        exact refused.elim two fun lost => lost available
    · rw [if_pos (possible.mpr ⟨two, available⟩), switchSlot_idle (by exact selected),
        deliver_answer _ (by exact turn.room)]
      rfl
    · have other : s.slots[i].protection.selected ≠ namedSelect backup := by
        rw [selected]
        cases backup <;> exact ListSelect.noConfusion
      have hold : switchedProtection (namedSelect backup) =
          ⟨if backup then .backup else .primary, backup, none, false⟩ := by
        cases backup <;> rfl
      rw [if_pos (possible.mpr ⟨two, available⟩), switchSlot_moves (by exact other),
        deliver_answer _ (by exact turn.room), hold, list_namedSelect, named]
      rfl

end Sys2Proof.Proofs
end

section
/-! PROOFS. READ_SLOT (R139). -/

namespace Sys2Proof.Machine

/-- R139: the clear option, as one update of the slots. -/
theorem clearClipCounter_eq (s : State) (i : SlotIdx) (clear : Bool) :
    clearClipCounter s i clear =
      { s with
        slots := if clear then updateAt s.slots i fun y => { y with meters := { y.meters with clipCounter := 0#16 } }
          else s.slots } := by
  cases clear <;> rfl

/-- R139: a READ_SLOT in range. -/
theorem readSlotRule_eq {s : State} {m : Message} {i : SlotIdx} {clear : Bool} (length : messageLength m = 5)
    (slot : argByte m 3 = i.val) (option : argByte m 4 = if clear then 1 else 0) :
    readSlotRule m s = okWith (clearClipCounter s i clear) (readSlotResults s.slots[i]) := by
  rw [readSlotRule, argFin_eq.mpr slot, argBool_eq.mpr option]
  exact if_pos length

/-- R139, Table 30: the byte that says whether a timer runs. -/
theorem boolByte_isSome {α : Type} (o : Option α) [Decidable (o = none)] :
    boolByte o.isSome = if o = none then 0#8 else 1#8 := by
  cases o <;> simp [boolByte]

end Sys2Proof.Machine

namespace Sys2Proof.Proofs
open Machine

/-- Settles O5: the row answers with the slot's fields as they stand, and its clear option is one update of the slot. -/
theorem readSlotAnswersAndClears : Obligations.ReadSlotAnswersAndClears := by
  intro s older newer m i clear x turn code _ length slot option control hx
  subst hx
  have row : exec (.readSlot m) s = .next ((readSlotRule m (s.taken older newer)).deliver m) :=
    congrArg Host.Outcome.next (executeCommand_of_read turn code option control _)
  rw [row, readSlotRule_eq length slot option, clearClipCounter_eq, deliver_okWith _ (by exact turn.room), taken_slots,
    readSlotResults, boolByte_isSome, boolByte_decide]
  cases s.slots[i].context.phase <;> rfl

end Sys2Proof.Proofs
end

section
/-! PROOFS. The evaluation of a level monitor (R140, R141), and the row LEVEL_HOLD_REACHED. -/

namespace Sys2Proof.Machine

/-! ### What a monitor's evaluation finds -/

namespace Monitor

variable {x : Monitor} {mag : Nat}

/-- R140, R141: the state is one that ends by the hold, after a run of periods below the threshold. -/
def EndsByHold (x : Monitor) : Prop := (x.mode = .above ∧ x.state = .over) ∨ (x.mode = .below ∧ x.state = .under)

/-- R140, R141: the state is one that a period at or above the threshold ends at once. -/
def EndsAtOnce (x : Monitor) : Prop := (x.mode = .above ∧ x.state = .under) ∨ (x.mode = .below ∧ x.state = .over)

theorem endsAtOnce_iff : x.EndsAtOnce ↔ ¬x.EndsByHold := by
  unfold EndsAtOnce EndsByHold
  cases x.mode <;> cases x.state <;> simp

theorem counts_iff : x.counts mag = true ↔ mag < x.threshold ∧ x.EndsByHold := by
  rw [counts, Bool.and_eq_true, decide_eq_true_eq, EndsByHold]
  cases x.mode <;> simp

theorem crosses_iff : x.crosses mag = true ↔ x.threshold ≤ mag ∧ x.EndsAtOnce := by
  rw [crosses, Bool.and_eq_true, decide_eq_true_eq, EndsAtOnce]
  cases x.mode <;> simp

/-- R140, R141: the period changes the state. -/
def changes (x : Monitor) (mag : Nat) : Bool := x.holdReached mag || x.crosses mag

theorem changes_iff : x.changes mag = true ↔
    (x.counts mag = true ∧ x.hold ≤ x.runCount + 1) ∨ (x.threshold ≤ mag ∧ x.EndsAtOnce) := by
  rw [changes, Bool.or_eq_true, crosses_iff, holdReached, Bool.and_eq_true, decide_eq_true_eq]

/-- R140, R141: the periods that neither end the state nor count toward its end. -/
theorem rests (h : (mag < x.threshold ∧ x.EndsAtOnce) ∨ (x.threshold ≤ mag ∧ x.EndsByHold)) :
    x.counts mag = false ∧ x.changes mag = false := by
  rw [← Bool.not_eq_true, ← Bool.not_eq_true, changes_iff, counts_iff]
  rcases h with ⟨under, atOnce⟩ | ⟨high, byHold⟩
  · have never := endsAtOnce_iff.mp atOnce
    exact ⟨fun c => never c.2, fun c => c.elim (fun c => never c.1.2) fun c => c.1.not_gt under⟩
  · exact ⟨fun c => high.not_gt c.1, fun c => c.elim (fun c => high.not_gt c.1.1) fun c => endsAtOnce_iff.mp c.2 byHold⟩

/-- R140, R141: a period that counts and leaves the run short of the hold. -/
theorem stays_of_short (counted : x.counts mag = true) (short : x.runCount + 1 < x.hold) : x.changes mag = false := by
  rw [← Bool.not_eq_true, changes_iff]
  exact fun c => c.elim (fun c => c.2.not_gt short) fun c => c.1.not_gt (counts_iff.mp counted).1

theorem evaluate_of_changes (h : x.changes mag = true) :
    x.evaluate mag = { x with state := x.flipped, runCount := 0, evalDue := false } := if_pos h

theorem evaluate_of_stays (h : x.changes mag = false) :
    x.evaluate mag = { x with runCount := if x.counts mag then x.runCount + 1 else 0, evalDue := false } := by
  refine (if_neg (Bool.not_eq_true _ ▸ h)).trans ?_
  split <;> rfl

end Monitor

namespace State

variable {s : State} {n : Fin 4}

/-! ### The evaluation as one update of the monitor -/

theorem updateMonitor_congr {f g : Monitor → Monitor} (h : f s.monitors[n] = g s.monitors[n]) :
    s.updateMonitor n f = s.updateMonitor n g := by
  rw [updateMonitor, updateAt_congr _ _ h, updateMonitor]

/-- R140: a disabled monitor evaluates nothing. -/
theorem evaluateMonitor_of_disabled (off : s.monitors[n].enabled = false) :
    s.evaluateMonitor n = s.updateMonitor n fun y => { y with evalDue := false } := by
  have silent : ¬(s.monitors[n].enabled && s.monitors[n].changes (s.subjectMagnitude n)) = true := by
    rw [off]
    exact Bool.noConfusion
  exact (if_neg silent).trans (updateMonitor_congr (if_neg (by rw [off]; exact Bool.noConfusion)))

/-- R140, R141: an enabled monitor raises the event of the state it enters, where its state changes. -/
theorem evaluateMonitor_of_enabled (on : s.monitors[n].enabled = true) :
    s.evaluateMonitor n =
      if s.monitors[n].changes (s.subjectMagnitude n) then
        (s.updateMonitor n (·.evaluate (s.subjectMagnitude n))).raise s.monitors[n].changeEvent (smallSubject n) 0#16
      else s.updateMonitor n (·.evaluate (s.subjectMagnitude n)) := by
  have work : (s.updateMonitor n fun y =>
        if y.enabled then y.evaluate (s.subjectMagnitude n) else { y with evalDue := false }) =
      s.updateMonitor n (·.evaluate (s.subjectMagnitude n)) := updateMonitor_congr (if_pos on)
  unfold evaluateMonitor
  dsimp only
  rw [work, on, Bool.true_and, Monitor.changes]

/-- R140, R141: the state UNDER ends. -/
theorem evaluateMonitor_of_under (on : s.monitors[n].enabled = true)
    (h : s.monitors[n].changes (s.subjectMagnitude n) = true) (state : s.monitors[n].state = .under) :
    s.evaluateMonitor n =
      (s.updateMonitor n fun y => { y with state := .over, runCount := 0, evalDue := false }).raise
        .levelOver (smallSubject n) 0#16 := by
  rw [evaluateMonitor_of_enabled on, if_pos h, Monitor.changeEvent, if_pos state]
  refine congrArg (·.raise .levelOver (smallSubject n) 0#16) (updateMonitor_congr ?_)
  rw [Monitor.evaluate_of_changes h, Monitor.flipped, if_pos state]

/-- R140, R141: the state OVER ends. -/
theorem evaluateMonitor_of_over (on : s.monitors[n].enabled = true)
    (h : s.monitors[n].changes (s.subjectMagnitude n) = true) (state : s.monitors[n].state = .over) :
    s.evaluateMonitor n =
      (s.updateMonitor n fun y => { y with state := .under, runCount := 0, evalDue := false }).raise
        .levelUnder (smallSubject n) 0#16 := by
  have other : s.monitors[n].state ≠ .under := by
    rw [state]
    exact MonitorState.noConfusion
  rw [evaluateMonitor_of_enabled on, if_pos h, Monitor.changeEvent, if_neg other]
  refine congrArg (·.raise .levelUnder (smallSubject n) 0#16) (updateMonitor_congr ?_)
  rw [Monitor.evaluate_of_changes h, Monitor.flipped, if_neg other]

/-- R140, R141: the state stays. -/
theorem evaluateMonitor_of_stays (on : s.monitors[n].enabled = true)
    (h : s.monitors[n].changes (s.subjectMagnitude n) = false) :
    s.evaluateMonitor n = s.updateMonitor n fun y =>
      { y with
        state := s.monitors[n].state
        runCount := if s.monitors[n].counts (s.subjectMagnitude n) then s.monitors[n].runCount + 1 else 0
        evalDue := false } := by
  rw [evaluateMonitor_of_enabled on, if_neg (Bool.not_eq_true _ ▸ h)]
  exact updateMonitor_congr (Monitor.evaluate_of_stays h)

/-! ### The rows -/

/-- The subject's works come to nothing where its sample is made. -/
theorem subjectWorks_of_taken {i : SlotIdx} (made : s.slots[i].due.transition = false)
    (mixed : s.slots[i].due.mix = false) : (s.switchFirst i).ensureMix i = s := by
  rw [switchFirst, made, if_neg Bool.noConfusion, ensureMix_of_taken mixed]

/-- R140: a monitor's work, once its subject's sample is made. -/
theorem exec_monitor (due : s.monitors[n].evalDue = true)
    (made : s.slots[s.monitors[n].subject].due.transition = false)
    (mixed : s.slots[s.monitors[n].subject].due.mix = false) :
    exec (.boundary (.only (.monitor n))) s = .next (s.evaluateMonitor n) := by
  refine congrArg Host.Outcome.next ?_
  rw [takeWork, switchFirst, made, if_neg Bool.noConfusion, ensureMonitor, if_pos due, ensureMix_of_taken mixed]

/-- R140, R141: the row LEVEL_HOLD_REACHED is the evaluation that brings the run count to the hold. -/
theorem exec_levelHoldReached (due : s.monitors[n].evalDue = true) (on : s.monitors[n].enabled = true)
    (made : s.slots[s.monitors[n].subject].due.transition = false)
    (mixed : s.slots[s.monitors[n].subject].due.mix = false)
    (counted : s.monitors[n].counts (s.subjectMagnitude n) = true)
    (held : s.monitors[n].hold ≤ s.monitors[n].runCount + 1) :
    exec (.levelHoldReached n) s = .next (s.evaluateMonitor n) := by
  have hold : s.holdDue n = true := by
    rw [holdDue, subjectWorks_of_taken made mixed, due, on, Monitor.holdReached, counted, decide_eq_true held]
    rfl
  have row : exec (.levelHoldReached n) s = exec (.boundary (.only (.monitor n))) s :=
    congrArg Host.Outcome.next (if_pos hold)
  rw [row, exec_monitor due made mixed]

end State

end Sys2Proof.Machine

namespace Sys2Proof.Proofs
open Machine

/-- Settles O34: with the subject's sample made, the work is the evaluation alone; it changes the state at the threshold from
one state and at the hold from the other, and else counts or starts the count again. -/
theorem monitorEvaluatesItsSubject : Obligations.MonitorEvaluatesItsSubject := by
  intro s n x below stand hx due made mixed hbelow hstand
  subst hx
  obtain rfl : stand = fun state run => s.updateMonitor n fun y =>
      { y with state := state, runCount := run, evalDue := false } := funext₂ hstand
  have low : below = true ↔ s.subjectMagnitude n < s.monitors[n].threshold := by
    rw [hbelow, decide_eq_true_eq]
    rfl
  have high : below = false ↔ s.monitors[n].threshold ≤ s.subjectMagnitude n := by
    rw [← Bool.not_eq_true, low, not_lt]
  rw [State.exec_monitor due made mixed]
  refine ⟨fun off => ?_, fun on => ⟨fun rest => ?_, fun mode state above => ?_, fun mode state above => ?_,
    fun byHold under => ?_⟩⟩
  · rw [State.evaluateMonitor_of_disabled off]
    exact congrArg _ (State.updateMonitor_congr rfl)
  · have cell : (s.subjectMagnitude n < s.monitors[n].threshold ∧ s.monitors[n].EndsAtOnce) ∨
        (s.monitors[n].threshold ≤ s.subjectMagnitude n ∧ s.monitors[n].EndsByHold) := by
      rw [← low, ← high]
      rcases rest with ⟨mode, state, h⟩ | ⟨mode, state, h⟩ | ⟨mode, state, h⟩ | ⟨mode, state, h⟩
      · exact .inl ⟨h, .inl ⟨mode, state⟩⟩
      · exact .inr ⟨h, .inl ⟨mode, state⟩⟩
      · exact .inr ⟨h, .inr ⟨mode, state⟩⟩
      · exact .inl ⟨h, .inr ⟨mode, state⟩⟩
    obtain ⟨uncounted, stays⟩ := Monitor.rests cell
    rw [State.evaluateMonitor_of_stays on stays, uncounted]
    rfl
  · rw [State.evaluateMonitor_of_under on (Monitor.changes_iff.mpr (.inr ⟨high.mp above, .inl ⟨mode, state⟩⟩)) state]
    rfl
  · rw [State.evaluateMonitor_of_over on (Monitor.changes_iff.mpr (.inr ⟨high.mp above, .inr ⟨mode, state⟩⟩)) state]
    rfl
  · have counted := Monitor.counts_iff.mpr ⟨low.mp under, byHold⟩
    refine ⟨fun short => ?_, fun held => ?_⟩
    · rw [State.evaluateMonitor_of_stays on (Monitor.stays_of_short counted short), if_pos counted]
    · have ends := Monitor.changes_iff.mpr (.inl ⟨counted, held⟩)
      rw [State.exec_levelHoldReached due on made mixed counted held]
      refine ⟨?_, rfl⟩
      rcases byHold with ⟨-, state⟩ | ⟨-, state⟩
      · rw [if_pos state, State.evaluateMonitor_of_over on ends state]
        rfl
      · have other : s.monitors[n].state ≠ .over := by
          rw [state]
          exact MonitorState.noConfusion
        rw [if_neg other, State.evaluateMonitor_of_under on ends state]
        rfl

end Sys2Proof.Proofs
end

section
/-! PROOFS. The law of the management channel (R151, R152, R156, R19): what an arrival and a command can put in the command
queue and in the response queues. -/
-- One proof after another: elaborated side by side, the proofs of the whole text come close to the check's memory limit. An
-- index is written with its bound for the same reason.
set_option Elab.async false

namespace Sys2Proof.Machine

/-! ### An arrival touches the channel only where it completes a message -/

/-- Of the state, `t` differs from `s` in the ports and the event unit at most. -/
def WritesPorts (s t : State) : Prop := ∃ ports events, t = { s with ports := ports, events := events }

namespace WritesPorts

variable {s t u : State} {p : PortIdx}

theorem refl (s : State) : WritesPorts s s := ⟨_, _, rfl⟩

theorem trans (h : WritesPorts s t) (k : WritesPorts t u) : WritesPorts s u := by
  obtain ⟨_, _, rfl⟩ := h
  obtain ⟨_, _, rfl⟩ := k
  exact ⟨_, _, rfl⟩

theorem channel (h : WritesPorts s t) : t.channel = s.channel := by
  obtain ⟨_, _, rfl⟩ := h
  rfl

theorem egress (h : WritesPorts s t) : t.egress = s.egress := by
  obtain ⟨_, _, rfl⟩ := h
  rfl

theorem updatePort (s : State) (p : PortIdx) (f : Port → Port) : WritesPorts s (s.updatePort p f) := ⟨_, _, rfl⟩

theorem failQualification (s : State) (p : PortIdx) (detail : Word16) : WritesPorts s (s.failQualification p detail) := by
  obtain ⟨f, events, hw⟩ := s.failQualification_writes p detail
  exact ⟨_, _, hw⟩

theorem storeArrival (s : State) (p : PortIdx) (r : FrameRecord) : WritesPorts s (s.storeArrival p r) := by
  obtain ⟨f, events, hw⟩ := (s.updatePort p fun x => x.record s.timing.tick r.sequence).appendFrame_writes p r
  exact (updatePort s p _).trans ⟨_, _, hw⟩

/-- R36: the port's state machine has no effect on the channel. -/
theorem portArrival (s : State) (p : PortIdx) (r : FrameRecord) (reached : Bool) :
    WritesPorts s (s.portArrival p r reached) := by
  have waiting : WritesPorts s (if reached then s.updatePort p fun x => x.enterQualify s.timing.tick r.sequence else s) := by
    split
    · exact updatePort s p _
    · exact refl s
  unfold State.portArrival
  split
  · exact waiting
  · exact waiting
  · unfold State.qualifyArrival
    dsimp only
    split
    · exact (updatePort s p _).trans (failQualification _ p _)
    · exact updatePort s p _
  · refine (storeArrival s p r).trans ?_
    unfold State.lockIfPrimed
    split
    · exact ⟨_, _, rfl⟩
    · exact refl _
  · exact storeArrival s p r
  · exact refl s

theorem examineMissing (s : State) (p : PortIdx) : WritesPorts s (s.examineMissing p) := by
  unfold State.examineMissing
  split
  · exact updatePort s p _
  · rw [State.loseAlignment_eq]
    split
    · exact (updatePort s p _).trans (failQualification _ p _)
    all_goals exact ⟨_, _, rfl⟩

theorem rejectFragment (s : State) (p : PortIdx) (detail : Word16) : WritesPorts s (s.rejectFragment p detail) := by
  obtain ⟨f, events, hw⟩ := s.rejectFragment_writes p detail
  exact ⟨_, _, hw⟩

theorem dropPartial (s : State) (p : PortIdx) : WritesPorts s (s.dropPartial p) := by
  unfold State.dropPartial
  split
  · exact rejectFragment s p _
  · exact refl s

end WritesPorts

/-- What becomes of a service field at the reassembly buffer of `p` (R147): the ports and the event unit are written, and a
message may then be complete. -/
def Reassembles (p : PortIdx) (s t : State) : Prop :=
  ∃ u, WritesPorts s u ∧ (t = u ∨ ∃ bytes, t = u.completeMessage p bytes)

namespace Reassembles

variable {s t u : State} {p : PortIdx}

theorem of_writesPorts (h : WritesPorts s t) : Reassembles p s t := ⟨t, h, .inl rfl⟩

theorem of_complete (h : WritesPorts s u) (bytes : List Byte) : Reassembles p s (u.completeMessage p bytes) :=
  ⟨u, h, .inr ⟨bytes, rfl⟩⟩

theorem reject (s : State) (p : PortIdx) (detail : Word16) : Reassembles p s (s.rejectFragment p detail) :=
  of_writesPorts (WritesPorts.rejectFragment s p detail)

theorem takeFirst (s : State) (p : PortIdx) (index : Nat) (payload : List Byte) :
    Reassembles p s (s.takeFirst p index payload) := by
  unfold State.takeFirst
  split
  · exact of_writesPorts ((WritesPorts.dropPartial s p).trans (WritesPorts.updatePort _ p _))
  · exact reject s p _

theorem takeMiddle (s : State) (p : PortIdx) (index : Nat) (payload : List Byte) :
    Reassembles p s (s.takeMiddle p index payload) := by
  unfold State.takeMiddle
  split
  · split
    · exact of_writesPorts (WritesPorts.updatePort s p _)
    · exact reject s p _
  · exact reject s p _

theorem takeLast (s : State) (p : PortIdx) (index : Nat) (payload : List Byte) :
    Reassembles p s (s.takeLast p index payload) := by
  unfold State.takeLast
  split
  · split
    · exact of_complete (WritesPorts.updatePort s p _) _
    · exact reject s p _
  · exact reject s p _

theorem takeOnly (s : State) (p : PortIdx) (index : Nat) (payload : List Byte) :
    Reassembles p s (s.takeOnly p index payload) := by
  unfold State.takeOnly
  split
  · exact of_complete ((WritesPorts.dropPartial s p).trans (WritesPorts.updatePort _ p _)) _
  · exact reject s p _

theorem ite {c : Prop} [Decidable c] (h : Reassembles p s t) (k : Reassembles p s u) :
    Reassembles p s (if c then t else u) := by
  split
  · exact h
  · exact k

/-- R146 to R148, by the kind of the field. -/
theorem takeFragment (s : State) (p : PortIdx) (tag : Byte) (payload : List Byte) :
    Reassembles p s (s.takeFragment p tag payload) := by
  unfold State.takeFragment
  exact ite (of_writesPorts (WritesPorts.refl s)) <| ite (reject s p _) <| ite (reject s p _) <| ite (takeFirst s p _ _) <|
    ite (takeMiddle s p _ _) <| ite (takeLast s p _ _) (takeOnly s p _ _)

end Reassembles

/-! ### R152: the messages that join the command queue -/

/-- R151: cut to its length byte, a message of a good length is well-formed. -/
theorem Message.wellFormed_take {bytes : List Byte} {p : PortIdx} (long : 3 ≤ (bytes.getD 0 0#8).toNat)
    (short : (bytes.getD 0 0#8).toNat ≤ 64) (complete : (bytes.getD 0 0#8).toNat ≤ bytes.length) :
    (⟨p, bytes.take (bytes.getD 0 0#8).toNat⟩ : Message).wellFormed = true := by
  have first : messageLength ⟨p, bytes.take (bytes.getD 0 0#8).toNat⟩ = (bytes.getD 0 0#8).toNat := by
    rw [messageLength, messageByte, List.getD_eq_getElem?_getD, List.getElem?_take_of_lt (by omega),
      ← List.getD_eq_getElem?_getD]
  have length : (bytes.take (bytes.getD 0 0#8).toNat).length = (bytes.getD 0 0#8).toNat := by
    rw [List.length_take]
    omega
  simp only [Message.wellFormed, first, length, Bool.and_eq_true, decide_eq_true_eq]
  exact ⟨⟨long, short⟩, trivial⟩

/-! ### R156, R19: the response queues -/

namespace Egress

variable {y : Egress}

/-- R156, R19: a response joins a queue with room in an enabled port, or is discarded. -/
theorem sound.place (h : y.sound) (r : Response) : (Egress.place r y).sound := by
  unfold Egress.place
  split
  · next fits =>
    rw [Bool.and_eq_true, hasRoom_iff] at fits
    refine ⟨?_, fun off => absurd fits.1 (by rw [off]; decide)⟩
    rw [List.length_append, List.length_singleton]
    exact fits.2
  · exact h

/-- R157: the head of the response queue leaves it for the transmitter. -/
theorem sound.pickResponse (h : y.sound) : y.pickResponse.sound := by
  unfold Egress.pickResponse
  split
  · next r rest waiting =>
    refine ⟨?_, fun off => absurd ((h.2 off).1) (by rw [waiting]; exact List.cons_ne_nil _ _)⟩
    have few := h.1
    rw [waiting, List.length_cons] at few
    exact Nat.le_of_succ_le few
  · exact h

/-- R157: a transmitter without a message supplies the idle field and stays without one. -/
theorem sound.serve (h : y.sound) : y.serve.sound := by
  refine ⟨h.1, fun off => ⟨(h.2 off).1, ?_⟩⟩
  rw [Egress.serve, (h.2 off).2]
  rfl

/-- R19, R20: an egress port with no response and no message. -/
theorem sound_of_empty (responses : y.responses = []) (transmitter : y.transmitter = none) : y.sound :=
  ⟨by rw [responses]; exact Nat.zero_le _, fun _ => ⟨responses, transmitter⟩⟩

end Egress

namespace ChannelSound

variable {s t : State} {p : PortIdx}

theorem few (h : ChannelSound s) : s.channel.queue.length ≤ 8 := h.1

theorem formed (h : ChannelSound s) : ∀ m ∈ s.channel.queue, m.wellFormed = true := h.2.1

theorem port (h : ChannelSound s) (e : PortIdx) : (s.egress[e]'e.isLt).sound := h.2.2 e

/-- The law speaks of the command queue and the egress ports alone. -/
theorem of_eq (h : ChannelSound s) (queue : t.channel.queue = s.channel.queue) (egress : t.egress = s.egress) :
    ChannelSound t := by
  unfold ChannelSound
  rw [queue, egress]
  exact h

theorem of_writesPorts (h : ChannelSound s) (written : WritesPorts s t) : ChannelSound t :=
  h.of_eq (by rw [written.channel]) written.egress

theorem updateEgress {f : Egress → Egress} (h : ChannelSound s) (sound : (f (s.egress[p]'p.isLt)).sound) :
    ChannelSound (s.updateEgress p f) := by
  refine ⟨h.few, h.formed, fun q => ?_⟩
  by_cases hp : p = q
  · subst hp
    rw [State.updateEgress_egress_self]
    exact sound
  · rw [State.updateEgress_egress, updateAt_get_ne _ _ hp]
    exact h.port q

theorem place (h : ChannelSound s) (r : Response) : ChannelSound (s.updateEgress p (Egress.place r)) :=
  h.updateEgress ((h.port p).place r)

/-! ### Messages -/

theorem answerUnexecuted (h : ChannelSound s) (bytes : List Byte) (status : Status) (detail : Word16) :
    ChannelSound (s.answerUnexecuted p bytes status detail) := by
  unfold State.answerUnexecuted
  dsimp only
  split
  · exact h.of_eq rfl rfl
  · exact h.place _

/-- R152: a well-formed message joins the tail of a queue with room. -/
theorem queueMessage (h : ChannelSound s) {bytes : List Byte} (formed : (⟨p, bytes⟩ : Message).wellFormed = true) :
    ChannelSound (s.queueMessage p bytes) := by
  unfold State.queueMessage
  split
  · next room =>
    refine ⟨?_, fun m queued => ?_, h.port⟩
    · dsimp only [State.updateChannel]
      rw [List.length_append, List.length_singleton]
      exact room
    · rcases List.mem_append.mp queued with before | new
      · exact h.formed m before
      · obtain rfl := List.mem_singleton.mp new
        exact formed
  · exact h.answerUnexecuted _ _ _

/-- R151: only a message of good length comes to the command queue. -/
theorem completeMessage (h : ChannelSound s) (bytes : List Byte) : ChannelSound (s.completeMessage p bytes) := by
  unfold State.completeMessage
  dsimp only
  split
  · exact h.of_eq rfl rfl
  · split
    · exact h.answerUnexecuted _ _ _
    · next good =>
      simp only [Bool.or_eq_true, decide_eq_true_eq, not_or, Nat.not_lt] at good
      exact h.queueMessage (Message.wellFormed_take (by omega) good.1.1 good.1.2)

theorem takeFragment (h : ChannelSound s) (tag : Byte) (payload : List Byte) :
    ChannelSound (s.takeFragment p tag payload) := by
  obtain ⟨t, written, e | ⟨bytes, e⟩⟩ := Reassembles.takeFragment s p tag payload
  · rw [e]
    exact h.of_writesPorts written
  · rw [e]
    exact (h.of_writesPorts written).completeMessage bytes

theorem takeArrival (h : ChannelSound s) (f : LaneFrame) (reached : Bool) : ChannelSound (s.takeArrival p f reached) := by
  have checked : ChannelSound (s.checkSequence p (frameSequence f)) := by
    rw [State.checkSequence_eq]
    exact h.of_eq rfl rfl
  exact (checked.of_writesPorts (WritesPorts.portArrival _ p _ reached)).takeFragment _ _

/-! ### Transmitters -/

/-- R157: a message fully sent leaves its transmitter. -/
theorem completeSending (h : ChannelSound s) (e : PortIdx) : ChannelSound (s.completeSending e) := by
  have ended : ChannelSound (s.updateEgress e fun y => { y with transmitter := none }) :=
    h.updateEgress ⟨(h.port e).1, fun off => ⟨((h.port e).2 off).1, rfl⟩⟩
  cases hx : (s.egress[e]'e.isLt).fullySent with
  | none => rw [State.completeSending_of_unsent hx]; exact h
  | some x =>
    rw [State.completeSending_of_sent hx]
    cases x.origin <;> exact ended.of_eq rfl rfl

/-- R157: only an enabled port picks a report. -/
theorem pickReport (h : ChannelSound s) {e : PortIdx} (on : (s.egress[e]'e.isLt).enabled = true) :
    ChannelSound (s.pickReport e) := by
  unfold State.pickReport
  split
  · split
    · next r _ _ =>
      have picked : ChannelSound (s.updateEgress e fun y =>
          { y with transmitter := some { bytes := reportBytes r, next := 0, origin := .report r.sequence } }) :=
        h.updateEgress ⟨(h.port e).1, fun off => absurd on (by rw [off]; decide)⟩
      exact picked.of_eq rfl rfl
    · exact h
  · exact h

theorem pickMessage (h : ChannelSound s) {e : PortIdx} (on : (s.egress[e]'e.isLt).enabled = true) :
    ChannelSound (s.pickMessage e) := by
  unfold State.pickMessage
  split
  · exact h
  · split
    · exact h.pickReport on
    · exact h.updateEgress (h.port e).pickResponse

/-! ### Commands, boundaries and resets -/

/-- R154: the processor takes one message of the queue. -/
theorem taken (h : ChannelSound s) {older newer : List Message} {m : Message} (turn : Turn s older m newer) :
    ChannelSound (s.taken older newer) := by
  have rest : (older ++ newer).Sublist s.channel.queue := by
    rw [turn.queue]
    exact (List.sublist_cons_self m newer).append_left older
  exact ⟨rest.length_le.trans h.few, fun x queued => h.formed x (rest.subset queued), h.port⟩

theorem moveControl (h : ChannelSound s) : ChannelSound (moveControl s p) := by
  unfold Machine.moveControl
  split <;> exact h.of_eq rfl rfl

/-- R20: a port enabled afresh begins with empty queues. -/
theorem enableEgress (h : ChannelSound s) (e : PortIdx) : ChannelSound (enableEgress s e) := by
  unfold Machine.enableEgress
  split
  · exact h
  · exact h.updateEgress (Egress.sound_of_empty rfl rfl)

/-- R20, R156, R157: a disable discards the responses and abandons the message being sent. -/
theorem disableEgress (h : ChannelSound s) (e : PortIdx) : ChannelSound (disableEgress s e) := by
  unfold Machine.disableEgress
  split
  · obtain ⟨events, abandoned⟩ := (s.completeSending e).abandonSending_writes e
    rw [abandoned]
    exact ((h.completeSending e).of_eq (t := { s.completeSending e with events := events }) rfl rfl).updateEgress
      (Egress.sound_of_empty rfl rfl)
  · exact h

theorem armWorks (h : ChannelSound s) : ChannelSound s.armWorks := by
  refine ⟨h.few, h.formed, fun e => ?_⟩
  rw [s.armWorks_egress]
  exact h.port e

theorem fixTiming (h : ChannelSound s) : ChannelSound s.fixTiming := by
  obtain ⟨timing, events, hw⟩ := s.fixTiming_writes
  rw [hw]
  exact h.of_eq rfl rfl

/-- R164: a soft reset empties the command queue, the response queues and the transmitters. -/
theorem softReset (s : State) : ChannelSound s.softReset := by
  have values : ChannelSound s.softResetValues := by
    refine ⟨Nat.zero_le _, fun m queued => absurd queued List.not_mem_nil, fun e => ?_⟩
    rw [s.softResetValues_egress]
    exact Egress.sound_of_empty rfl rfl
  exact (values.of_eq (t := s.softResetValues.raise .resetDone 0 ResetCause.soft.code) rfl rfl).armWorks.fixTiming

/-- Every operation the steps are made of keeps the law of the channel. -/
theorem blocks : KeptByBlocks ChannelSound where
  queue _ _ h := h.of_eq rfl rfl
  afterReset := channelSound_afterReset
  softReset s _ := softReset s
  passTicks _ _ h := h.of_eq rfl rfl
  beginBoundary s h :=
    (h.of_eq (t := (s.beginPeriod.updateEvents EventUnit.ageRecords).armPicks) rfl rfl).armWorks
  timing _ h := h.fixTiming
  commit s c _ h :=
    have ⟨slots, routes, hw, _⟩ := s.takeCommit_writes c
    h.of_eq (hw ▸ rfl) (hw ▸ rfl)
  window s p h :=
    have ⟨f, events, hw⟩ := s.takeWindow_writes p
    h.of_eq (hw ▸ rfl) (hw ▸ rfl)
  loseSource _ _ _ h := h.of_eq rfl rfl
  silence s p h :=
    have ⟨f, events, hw⟩ := s.takeSilence_writes p
    h.of_eq (hw ▸ rfl) (hw ▸ rfl)
  sent _ e h := h.completeSending e
  reportTimeout _ _ h := h.of_eq rfl rfl
  pick s p h :=
    have ⟨f, events, hw⟩ := s.pickFrame_writes p
    h.of_eq (hw ▸ rfl) (hw ▸ rfl)
  settle s i h :=
    have ⟨failed, events, hw⟩ := s.checkSettle_writes i
    h.of_eq (hw ▸ rfl) (hw ▸ rfl)
  notice s i h := s.takeNotice_writes i ▸ h.of_eq rfl rfl
  evaluate s i h :=
    have ⟨f, new, events, hw⟩ := s.evaluateSlot_evaluates i
    h.of_eq (hw ▸ rfl) (hw ▸ rfl)
  makeContext s i h :=
    have ⟨f, entered, events, hw⟩ := s.makeContext_writes i
    h.of_eq (hw ▸ rfl) (hw ▸ rfl)
  mixSlot s i h :=
    have ⟨meters, output, events, hw⟩ := s.mixSlot_writes i
    h.of_eq (hw ▸ rfl) (hw ▸ rfl)
  due _ _ _ _ h := h.of_eq rfl rfl
  monitor s m h :=
    have ⟨f, events, hw⟩ := s.evaluateMonitor_writes m
    h.of_eq (hw ▸ rfl) (hw ▸ rfl)
  pickMessage _ _ on h := h.pickMessage on
  serve _ e h := h.updateEgress (h.port e).serve
  pass _ e h := h.updateEgress (h.port e)
  sendFrame _ e h := h.updateEgress (h.port e)
  candidate s p n f _ h := by
    unfold State.examineCandidate
    split <;> exact h.of_eq rfl rfl
  confirming s p f _ h := by
    unfold State.examineConfirming
    split
    · split
      · exact h.of_eq rfl rfl
      · exact (h.of_writesPorts (WritesPorts.updatePort s p _)).takeArrival f true
    · exact h.of_eq rfl rfl
  arrival s p f _ _ h := (h.of_writesPorts (WritesPorts.updatePort s p _)).takeArrival f _
  crcError _ _ _ h := h.of_eq rfl rfl
  missing s p _ h := h.of_writesPorts (WritesPorts.examineMissing s p)
  taken _ _ _ _ turn h := h.taken turn
  endTurn _ h := h.of_eq rfl rfl
  respond _ _ _ _ _ h := h.place _
  halt _ h := h.of_eq rfl rfl
  control _ _ _ _ h := h.moveControl
  enableEgress _ e h := h.enableEgress e
  disableEgress _ e _ h := h.disableEgress e
  configurePort s p enable x _ h := configurePort_eq s p enable x ▸ h.of_eq rfl rfl
  restartPort s p h := restartPort_eq s p ▸ h.of_eq rfl rfl
  clearCounters s p clear h := by
    cases clear <;> exact h.of_eq rfl rfl
  source _ _ h := h.of_eq rfl rfl
  stage _ _ _ _ _ h := h.of_eq rfl rfl
  copyActive s mask h := by
    unfold State.copyActive
    exact h.of_eq rfl rfl
  pendingCommit _ _ h := h.of_eq rfl rfl
  profile s i x h := s.writeProfile_writes i x ▸ h.of_eq rfl rfl
  clearClip s i clear h := by
    unfold clearClipCounter
    split <;> exact h.of_eq rfl rfl
  clearMeters s e clear h := by
    unfold clearMeters
    split <;> exact h.of_eq rfl rfl
  switch s i select _ h := by
    unfold switchSlot
    split <;> exact h.of_eq rfl rfl
  monitorConfig _ _ _ h := h.of_eq rfl rfl
  eventConfig _ _ _ _ h := h.of_eq rfl rfl
  acknowledge _ _ h := h.of_eq rfl rfl
  clearAlarms _ _ h := h.of_eq rfl rfl
  pinMask _ _ h := h.of_eq rfl rfl

end ChannelSound

end Sys2Proof.Machine

namespace Sys2Proof.Proofs
open Machine

/-- Settles O57: only a complete message of good length joins the command queue (R151, R152), a response joins only a queue
with room in an enabled port (R156, R19), and a disable empties its port. -/
theorem stepsKeepChannelSound : Obligations.StepsKeepChannelSound := fun _ _ sound taken =>
  ChannelSound.blocks.step_keeps sound taken

end Sys2Proof.Proofs
end

section
/-! PROOFS. The reassembly buffers (R146 to R149), the fate of a complete message (R151 to R153, R165) and of a message fully
sent (R157). -/
-- One proof after another: elaborated side by side, the proofs of the whole text come close to the check's memory limit. An
-- index is written with its bound for the same reason.
set_option Elab.async false

namespace Sys2Proof.Machine

namespace State

variable {s : State} {p : PortIdx} {index : Nat} {payload : List Byte}

/-! ### Table 33, by what the buffer holds -/

/-- R147: what a FIRST or ONLY does with a partial message it finds. -/
theorem dropPartial_eq (s : State) (p : PortIdx) :
    s.dropPartial p = if (s.ports[p]'p.isLt).reassembly = none then s else s.rejectFragment p 1#16 := by
  unfold dropPartial
  cases (s.ports[p]'p.isLt).reassembly <;> rfl

theorem rejectFragment_reassembly (s : State) (p : PortIdx) (detail : Word16) :
    (s.rejectFragment p detail).ports[p].reassembly = none := by
  simp only [rejectFragment, mgmtError, raise_ports, countPort_eq, updatePort_port, setReassembly]

/-- R147: a FIRST or ONLY finds a buffer that is idle, or leaves it so. -/
theorem dropPartial_reassembly (s : State) (p : PortIdx) : (s.dropPartial p).ports[p].reassembly = none := by
  rw [dropPartial_eq]
  split
  · next idle => exact idle
  · exact rejectFragment_reassembly s p _

theorem takeFirst_zero : s.takeFirst p 0 payload = (s.dropPartial p).setReassembly p (some ⟨payload, 1, 0⟩) := if_pos rfl

theorem takeFirst_of_pos (h : 1 ≤ index) : s.takeFirst p index payload = s.rejectFragment p 1#16 := if_neg (by omega)

theorem takeOnly_zero : s.takeOnly p 0 payload = (s.dropPartial p).completeMessage p payload := by
  rw [takeOnly, if_pos rfl, setReassembly_idle (dropPartial_reassembly s p)]

theorem takeOnly_of_pos (h : 1 ≤ index) : s.takeOnly p index payload = s.rejectFragment p 1#16 := if_neg (by omega)

theorem takeMiddle_expected {b : PartialMessage} (held : (s.ports[p]'p.isLt).reassembly = some b) :
    s.takeMiddle p b.expected payload = s.setReassembly p (some ⟨b.bytes ++ payload, b.expected + 1, 0⟩) := by
  rw [takeMiddle, held]
  exact if_pos rfl

theorem takeMiddle_unexpected (other : ∀ b ∈ (s.ports[p]'p.isLt).reassembly, b.expected ≠ index) :
    s.takeMiddle p index payload = s.rejectFragment p 1#16 := by
  unfold takeMiddle
  cases held : (s.ports[p]'p.isLt).reassembly with
  | none => rfl
  | some b => exact if_neg fun same => other b held same.symm

theorem takeLast_expected {b : PartialMessage} (held : (s.ports[p]'p.isLt).reassembly = some b) :
    s.takeLast p b.expected payload = (s.setReassembly p none).completeMessage p (b.bytes ++ payload) := by
  rw [takeLast, held]
  exact if_pos rfl

theorem takeLast_unexpected (other : ∀ b ∈ (s.ports[p]'p.isLt).reassembly, b.expected ≠ index) :
    s.takeLast p index payload = s.rejectFragment p 1#16 := by
  unfold takeLast
  cases held : (s.ports[p]'p.isLt).reassembly with
  | none => rfl
  | some b => exact if_neg fun same => other b held same.symm

/-! ### Kinds and indices that Table 33 does not take -/

theorem takeFragment_idle {kind : Nat} (none : kind = 0) (hi : index < 32) :
    s.takeFragment p (makeTag kind index) payload = s := by
  rw [takeFragment, tagKind_makeTag (by omega) hi]
  exact if_pos none

theorem takeFragment_reserved {kind : Nat} (reserved : 5 ≤ kind) (hk : kind < 8) (hi : index < 32) :
    s.takeFragment p (makeTag kind index) payload = s.rejectFragment p 1#16 := by
  rw [takeFragment, tagKind_makeTag hk hi, if_neg (by omega), if_pos reserved]
  rfl

theorem takeFragment_beyond {kind : Nat} (some : 1 ≤ kind) (known : kind ≤ 4) (beyond : 22 ≤ index) (hi : index < 32) :
    s.takeFragment p (makeTag kind index) payload = s.rejectFragment p 3#16 := by
  rw [takeFragment, tagKind_makeTag (by omega) hi, tagIndex_makeTag (by omega) hi, if_neg (by omega), if_neg (by omega),
    if_pos (by exact beyond)]
  rfl

/-! ### R149: silence -/

theorem countSilence_reassembly {b : PartialMessage} (held : (s.ports[p]'p.isLt).reassembly = some b) :
    (s.ports[p]'p.isLt).countSilence =
      { s.ports[p]'p.isLt with reassembly := some { b with silence := b.silence + 1 }, silenceDue := false } := by
  rw [Port.countSilence, held]
  rfl

/-- R149: whether the boundary in progress times the buffer out. -/
theorem reassemblyExpired_countSilence {b : PartialMessage} (held : (s.ports[p]'p.isLt).reassembly = some b) :
    (s.ports[p]'p.isLt).countSilence.reassemblyExpired = decide (256 ≤ b.silence + 1) := by
  rw [countSilence_reassembly held]
  rfl

theorem silenceExpires_eq {b : PartialMessage} (held : (s.ports[p]'p.isLt).reassembly = some b)
    (due : (s.ports[p]'p.isLt).silenceDue = true) : s.silenceExpires p = decide (256 ≤ b.silence + 1) := by
  rw [silenceExpires, due, reassemblyExpired_countSilence held]
  rfl

theorem silenceExpired_eq {b : PartialMessage} (held : (s.ports[p]'p.isLt).reassembly = some b) :
    (s.updatePort p Port.countSilence).ports[p].reassemblyExpired = decide (256 ≤ b.silence + 1) :=
  (congrArg Port.reassemblyExpired (updatePort_port s p _)).trans (reassemblyExpired_countSilence held)

theorem takeSilence_of_early {b : PartialMessage} (held : (s.ports[p]'p.isLt).reassembly = some b)
    (early : b.silence + 1 < 256) :
    s.takeSilence p = s.updatePort p fun q =>
      { q with reassembly := some { b with silence := b.silence + 1 }, silenceDue := false } := by
  have running := (silenceExpired_eq held).trans (decide_eq_false (Nat.not_le.mpr early))
  exact (if_neg (ne_true_of_eq_false running)).trans (s.updatePort_congr p (countSilence_reassembly held))

theorem takeSilence_of_expired {b : PartialMessage} (held : (s.ports[p]'p.isLt).reassembly = some b)
    (late : 256 ≤ b.silence + 1) :
    s.takeSilence p = (s.updatePort p fun q => { q with silenceDue := false }).rejectFragment p 2#16 := by
  have expired := (silenceExpired_eq held).trans (decide_eq_true late)
  refine (if_pos expired).trans ?_
  simp only [rejectFragment, setReassembly, updatePort_updatePort]
  rfl

/-! ### R151 to R153: a complete message -/

variable {bytes : List Byte} {l : Byte}

/-- R156, R19: a response joins a queue with room in an enabled port. -/
theorem place_of_room {y : Egress} (on : y.enabled = true) (room : y.responses.length < 4) (r : Response) :
    Egress.place r y = { y with responses := y.responses ++ [r] } :=
  if_pos (by rw [on, y.hasRoom_iff.mpr room]; rfl)

theorem place_of_disabled {y : Egress} (off : y.enabled = false) (r : Response) : Egress.place r y = y :=
  if_neg (by rw [off]; exact Bool.false_ne_true)

/-- R153: a BUSY or BAD_LENGTH answer, by the egress port and the room in its response queue. -/
theorem answerUnexecuted_eq (s : State) (p : PortIdx) (bytes : List Byte) (status : Status) (detail : Word16) :
    s.answerUnexecuted p bytes status detail =
      if (s.egress[p]'p.isLt).enabled = false then s
      else if (s.egress[p]'p.isLt).responses.length < 4 then
        s.updateEgress p fun e =>
          { e with
            responses := e.responses ++
              [⟨responseBytes (bytes.getD 1 0#8) (bytes.getD 2 0#8) status [], .response⟩] }
      else s.mgmtError p detail := by
  have full : ((s.egress[p]'p.isLt).enabled && !(s.egress[p]'p.isLt).hasRoom) = true ↔
      (s.egress[p]'p.isLt).enabled = true ∧ ¬ (s.egress[p]'p.isLt).responses.length < 4 := by
    rw [Bool.and_eq_true, Bool.not_eq_true', ← Bool.not_eq_true, Egress.hasRoom_iff]
  rcases Bool.eq_false_or_eq_true (s.egress[p]'p.isLt).enabled with on | off
  · rw [if_neg (ne_false_of_eq_true on)]
    by_cases room : (s.egress[p]'p.isLt).responses.length < 4
    · rw [if_pos room]
      exact (if_neg fun held => (full.mp held).2 room).trans (s.updateEgress_congr (place_of_room on room _))
    · rw [if_neg room]
      exact if_pos (full.mpr ⟨on, room⟩)
  · rw [if_pos off]
    refine (if_neg fun held => ne_true_of_eq_false off (full.mp held).1).trans ?_
    rw [updateEgress, updateAt_id _ _ (place_of_disabled off _)]

theorem completeMessage_short (first : bytes.getD 0 0#8 = l) (short : l.toNat < 3) :
    s.completeMessage p bytes = s.mgmtError p 3#16 := by
  subst first
  exact if_pos short

theorem completeMessage_badLength (first : bytes.getD 0 0#8 = l) (long : 3 ≤ l.toNat)
    (bad : 64 < l.toNat ∨ bytes.length < l.toNat ∨ l.toNat + 2 < bytes.length) :
    s.completeMessage p bytes = s.answerUnexecuted p bytes .badLength 3#16 := by
  unfold completeMessage
  rw [first, if_neg (by omega), if_pos (by simpa [or_assoc] using bad)]
  rfl

theorem completeMessage_good (first : bytes.getD 0 0#8 = l) (long : 3 ≤ l.toNat) (short : l.toNat ≤ 64)
    (complete : l.toNat ≤ bytes.length) (padding : bytes.length ≤ l.toNat + 2) :
    s.completeMessage p bytes = s.queueMessage p (bytes.take l.toNat) := by
  unfold completeMessage
  rw [first, if_neg (by omega), if_neg (by simp only [Bool.or_eq_true, decide_eq_true_eq]; omega)]

theorem queueMessage_of_room (room : s.channel.queue.length < 8) :
    s.queueMessage p bytes = { s with channel := { s.channel with queue := s.channel.queue ++ [⟨p, bytes⟩] } } := if_pos room

theorem queueMessage_of_full (full : 8 ≤ s.channel.queue.length) :
    s.queueMessage p bytes = s.answerUnexecuted p bytes .busy 4#16 := if_neg (by exact Nat.not_lt.mpr full)

end State

end Sys2Proof.Machine

namespace Sys2Proof.Proofs
open Machine

/-- Settles O42: the tag gives back its kind and index, and each kind has its rows of Table 33. -/
theorem fragmentsFollowTable33 : Obligations.FragmentsFollowTable33 := by
  intro s p kind index payload rejected rejects hk hi
  have reject : ∀ x d, rejected x d = State.rejectFragment x p d := rejects
  simp only [reject]
  refine ⟨fun none => State.takeFragment_idle none hi, fun reserved => State.takeFragment_reserved reserved hk hi,
    fun some known beyond => State.takeFragment_beyond some known beyond hi, fun kinds pos inside => ?_, fun first zero => ?_,
    fun only zero => ?_, fun kinds inside other => ?_, fun b held expected inside => ⟨fun middle => ?_, fun last => ?_⟩,
    fun b held due => ⟨fun early => ⟨?_, ?_⟩, fun late => ⟨?_, ?_⟩⟩⟩
  · rcases kinds with rfl | rfl
    · rw [State.takeFragment_makeTag s p (by decide) inside, if_pos rfl, State.takeFirst_of_pos pos]
    · rw [State.takeFragment_makeTag s p (by decide) inside]
      exact State.takeOnly_of_pos pos
  · subst first zero
    rw [State.takeFragment_makeTag s p (by decide) (by decide), if_pos rfl, State.takeFirst_zero, State.dropPartial_eq]
    rfl
  · subst only zero
    rw [State.takeFragment_makeTag s p (by decide) (by decide), ← State.dropPartial_eq]
    exact State.takeOnly_zero
  · rcases kinds with rfl | rfl
    · rw [State.takeFragment_makeTag s p (by decide) inside]
      exact State.takeMiddle_unexpected other
    · rw [State.takeFragment_makeTag s p (by decide) inside]
      exact State.takeLast_unexpected other
  · subst middle expected
    rw [State.takeFragment_makeTag s p (by decide) inside]
    exact State.takeMiddle_expected held
  · subst last expected
    rw [State.takeFragment_makeTag s p (by decide) inside]
    exact State.takeLast_expected held
  · have row : exec (.reassemblyTimeout p) s = .next (if s.silenceExpires p then s.takeSilence p else s) := rfl
    rw [row, State.silenceExpires_eq held due, if_neg (by rw [decide_eq_true_eq]; omega)]
  · have row : exec (.boundary (.only (.silence p))) s = .next (s.ensureSilence p) := rfl
    rw [row, State.ensureSilence, due, if_pos rfl, State.takeSilence_of_early held early]
  · have row : exec (.reassemblyTimeout p) s = .next (if s.silenceExpires p then s.takeSilence p else s) := rfl
    rw [row, State.silenceExpires_eq held due, if_pos (decide_eq_true late), State.takeSilence_of_expired held late]
  · have row : exec (.reassemblyTimeout p) s = .next (if s.silenceExpires p then s.takeSilence p else s) := rfl
    have turn : exec (.boundary (.only (.silence p))) s = .next (s.ensureSilence p) := rfl
    rw [row, turn, State.silenceExpires_eq held due, if_pos (decide_eq_true late), State.ensureSilence, due, if_pos rfl]

/-- Settles O43: the length byte chooses among R151's three fates, the room in the command queue and in the response queue
between queueing, an answer and a count; each detail has its counter. -/
theorem completeMessagesAreQueuedOrAnswered : Obligations.CompleteMessagesAreQueuedOrAnswered := by
  refine ⟨?_, ?_⟩
  · rintro s p code tag rest l bytes answered rfl answers
    have first : (l :: code :: tag :: rest).getD 0 0#8 = l := rfl
    refine ⟨State.completeMessage_short first, fun long bad => ?_,
      fun long short complete padding => ⟨fun room => ?_, fun full => ?_⟩⟩
    · rw [answers, State.completeMessage_badLength first long bad, State.answerUnexecuted_eq]
      rfl
    · rw [State.completeMessage_good first long short complete padding]
      exact State.queueMessage_of_room room
    · have head : ∃ more, (l :: code :: tag :: rest).take l.toNat = l :: code :: tag :: more := by
        obtain ⟨n, hn⟩ : ∃ n, l.toNat = n + 3 := ⟨l.toNat - 3, by omega⟩
        exact ⟨rest.take n, by simp [hn]⟩
      obtain ⟨more, message⟩ := head
      rw [answers, State.completeMessage_good first long short complete padding, message,
        State.queueMessage_of_full full, State.answerUnexecuted_eq]
      rfl
  · intro s p bump saturates detail change counter
    have bumped : ∀ c, bump c = saturatingInc c := fun c => by rw [saturates, saturatingInc_eq]
    simp only [bumped] at counter
    rcases counter with ⟨rfl, rfl⟩ | ⟨rfl, rfl⟩ | ⟨rfl, rfl⟩ | ⟨rfl, rfl⟩ <;> rfl

/-- Settles O47: the transmitter's message is fully sent, and the row gives it the effect of its origin. -/
theorem messagesFullySentHaveTheirEffect : Obligations.MessagesFullySentHaveTheirEffect := by
  rintro s e x idle sending due last rfl
  have sent : exec (.messageFullySent e) s =
      .next ((s.updateEgress e fun y => { y with transmitter := none }).messageEffect x.origin) :=
    congrArg Host.Outcome.next (State.completeSending_of_sent (Egress.fullySent_eq_some.mpr ⟨sending, due, last⟩))
  refine ⟨fun response => ?_, fun reset => ?_, fun n report => ?_⟩
  · rw [sent, response]
    rfl
  · rw [sent, reset]
    rfl
  · have marked : ∀ r : EventRecord,
        (if r.sequence = n ∧ r.inTransmission = true then
          { r with inTransmission := false, state := .outstanding, sendCount := r.sendCount + 1, age := 0 } else r) =
        if r.sequence = n then
          (if r.inTransmission then
            { r with inTransmission := false, state := .outstanding, sendCount := r.sendCount + 1, age := 0 } else r)
        else r := fun r => by
      rw [ite_and]
    simp only [sent, report, marked]
    rfl

end Sys2Proof.Proofs
end

section
/-! PROOFS. Authority, the control role and the halt (R155, R160, R163). -/
-- One proof after another: elaborated side by side, the proofs of the whole text come close to the check's memory limit. An
-- index is written with its bound for the same reason.
set_option Elab.async false

namespace Sys2Proof.Machine

variable {s : State} {older newer : List Message} {m : Message}

/-- R160: a SET_CONTROL to a port enabled both ways. -/
theorem setControlRule_eq {p : PortIdx} (length : messageLength m = 4) (port : argByte m 3 = p.val)
    (ingress : (s.ports[p]'p.isLt).enabled = true) (egress : (s.egress[p]'p.isLt).enabled = true) :
    setControlRule m s = answer (moveControl s p) .ok := by
  rw [setControlRule, argFin_eq.mpr port]
  dsimp only
  rw [length, ingress, egress]
  rfl

theorem moveControl_self {p : PortIdx} (own : p = s.channel.control) : moveControl s p = s := if_pos own

/-- R160, R178: a move of the control role. -/
theorem moveControl_other {p : PortIdx} (other : p ≠ s.channel.control) :
    moveControl s p =
      { s with
        channel := { s.channel with control := p }
        events := EventUnit.raise s.timing.periodCounter .controlMoved ⟨p.val, by omega⟩
          (BitVec.ofNat 16 s.channel.control.val)
          { s.events with
            path := .running
            queue := s.events.queue.map fun r => { r with state := .unsent, sendCount := 0, stalled := false } } } :=
  if_neg other

/-- R155: a command that needs the control port, from another port. -/
theorem executeCommand_notOwner (turn : Turn s older m newer) {code : Byte} {authority : Authority}
    (named : messageCode m = code) (other : m.source ≠ s.channel.control) (needs : needsControl authority m = true)
    (rule : State → CommandResult) :
    executeCommand code authority m rule s = (s.taken older newer).answered m 5#8 [] := by
  rw [executeCommand_of_turn turn named, judge_refused (by exact other) needs, deliver_answer _ (by exact turn.room)]
  rfl

/-- R155: UNRECOGNISED_CODE. -/
theorem refuseCode_of_turn (turn : Turn s older m newer) (unknown : messageCode m ∉ commandCodes) :
    refuseCode m s = (s.taken older newer).answered m 3#8 [] := by
  rw [refuseCode, if_neg (by simpa using unknown), turn.taken_eq]
  exact deliver_answer .badCode turn.room

end Sys2Proof.Machine

namespace Sys2Proof.Proofs
open Machine

/-- Settles O9: the rule moves the role, or finds it where it is. -/
theorem setControlMovesTheRole : Obligations.SetControlMovesTheRole := by
  intro s older newer m p turn control code length port ingress egress
  have row : exec (.setControl m) s = .next ((setControlRule m (s.taken older newer)).deliver m) :=
    congrArg Host.Outcome.next (executeCommand_of_control turn code control _ _)
  rw [row, setControlRule_eq length port (by exact ingress) (by exact egress)]
  by_cases own : p = s.channel.control
  · rw [if_pos own, moveControl_self (by exact own), deliver_answer _ (by exact turn.room)]
    rfl
  · rw [if_neg own, moveControl_other (by exact own), deliver_answer _ (by exact turn.room)]
    rfl

/-- Settles O10: the rule halts the processor, and its response carries the reset (R164). -/
theorem softResetHaltsTheProcessor : Obligations.SoftResetHaltsTheProcessor := by
  intro s older newer m turn control code length
  have row : exec (.softReset m) s = .next ((softResetRule m (s.taken older newer)).deliver m) :=
    congrArg Host.Outcome.next (executeCommand_of_control turn code control _ _)
  rw [row, softResetRule, if_pos length, CommandResult.deliver, respond_eq (by exact turn.room)]
  rfl

/-- Settles O19: the row of an unknown code answers BAD_CODE, and every row whose command needs the control port is refused
before its rule. -/
theorem codesAndAuthorityAreChecked : Obligations.CodesAndAuthorityAreChecked := by
  refine ⟨fun s older newer m turn unknown => ?_, fun s older newer m code row turn other named commands => ?_⟩
  · exact congrArg Host.Outcome.next (refuseCode_of_turn turn unknown)
  · have refused : ∀ {authority : Authority} (rule : State → CommandResult), needsControl authority m = true →
        .next (executeCommand code authority m rule s) =
          (.next ((s.taken older newer).answered m 5#8 []) : Host.Outcome State Fault Refusal) := fun rule needs =>
      congrArg Host.Outcome.next (executeCommand_notOwner turn named other needs rule)
    simp only [List.mem_cons, Prod.mk.injEq, List.not_mem_nil, or_false] at commands
    rcases commands with changes | ⟨reads, clears⟩
    · rcases changes with ⟨rfl, rfl⟩ | ⟨rfl, rfl⟩ | ⟨rfl, rfl⟩ | ⟨rfl, rfl⟩ | ⟨rfl, rfl⟩ | ⟨rfl, rfl⟩ | ⟨rfl, rfl⟩ | ⟨rfl, rfl⟩ |
        ⟨rfl, rfl⟩ | ⟨rfl, rfl⟩ | ⟨rfl, rfl⟩ | ⟨rfl, rfl⟩ | ⟨rfl, rfl⟩ | ⟨rfl, rfl⟩ | ⟨rfl, rfl⟩ | ⟨rfl, rfl⟩ | ⟨rfl, rfl⟩ <;>
        exact refused (authority := .controlOnly) _ rfl
    · rcases reads with ⟨rfl, rfl⟩ | ⟨rfl, rfl⟩ | ⟨rfl, rfl⟩ <;>
        exact refused (authority := .clearOnly) _ (decide_eq_true clears)

end Sys2Proof.Proofs
end

section
/-! PROOFS. The refusals of the owning rules (R155, R20, R38, R41, R42, R51, R75, R81, R94, R125, R143, R160, R162, R163, R168,
R176, R180, R181): a length byte or an argument that a rule does not accept. -/
-- One proof after another: elaborated side by side, the proofs of the whole text come close to the check's memory limit. An
-- index is written with its bound for the same reason.
set_option Elab.async false

namespace Sys2Proof.Machine

variable {s : State} {older newer : List Message} {m : Message} {i n : Nat}

/-! ### The range of an argument that a rule reads -/

theorem argFin_lt {x : Fin n} (read : argFin m i n = some x) : argByte m i < n := argFin_eq.mp read ▸ x.isLt

theorem argBool_le {x : Bool} (read : argBool m i = some x) : argByte m i ≤ 1 := by
  rw [argBool_eq.mp read]
  cases x <;> decide

theorem argMask_range {x : BitVec 4} (read : argMask m i = some x) : 1 ≤ argByte m i ∧ argByte m i ≤ 15 := by
  simpa using (Option.ite_none_right_eq_some.mp read).1

theorem argKind_range {x : Fin 20} (read : argKind m i = some x) : argByte m i = x.val + 1 := by
  unfold argKind at read
  split at read
  · next range =>
    cases read
    exact (Nat.succ_pred_eq_of_pos range.1).symm
  · cases read

theorem argSource_le {x : Option PortIdx} (read : argSource m = some x) : argByte m 3 ≤ 4 := by
  rw [argSource] at read
  rcases port : argFin m 3 4 with _ | p
  · rw [port] at read
    exact (Option.ite_none_right_eq_some.mp read).1.le
  · exact (argFin_lt port).le

theorem argWordFin_lt {x : Fin n} (read : argWordFin m i n = some x) : (argWord m i).toNat < n :=
  argWordFin_eq.mp read ▸ x.isLt

theorem argAlarmMask_lt {x : BitVec 17} (read : argAlarmMask m i = some x) : (argTriple m i).toNat < 131072 :=
  (Option.ite_none_right_eq_some.mp read).1

/-- R38: settings out of range. -/
theorem argSettings_eq_none
    (bad : 3 < argByte m 5 ∨ 15 < argByte m 6 ∨ 3 < argByte m 7 ∨ 3 < argByte m 8 ∨ argByte m 9 = 0 ∨ 7 < argByte m 9) :
    argSettings m = none := by
  rw [argSettings]
  rcases window : argFin m 5 4 with _ | w
  · rfl
  rcases tolerance : argFin m 6 16 with _ | t
  · rfl
  rcases depth : argFin m 7 4 with _ | d
  · rfl
  rcases miss : argFin m 8 4 with _ | f
  · rfl
  rcases centre : argFin m 9 8 with _ | c
  · rfl
  have := argFin_lt window
  have := argFin_lt tolerance
  have := argFin_lt depth
  have := argFin_lt miss
  have := argFin_eq.mp centre
  exact if_pos (by omega)

/-- R94: an index or a fade out of range. -/
theorem argProfile_eq_none (bad : 7 < argByte m 3 ∨ 1023 < (argWord m 4).toNat ∨ 1023 < (argWord m 7).toNat) :
    argProfile m = none := by
  rw [argProfile]
  rcases index : argFin m 3 8 with _ | i
  · rfl
  rcases fadeOut : argWordFin m 4 1024 with _ | fo
  · rfl
  rcases argFin m 6 256 with _ | g
  · rfl
  rcases fadeIn : argWordFin m 7 1024 with _ | fi
  · rfl
  have := argFin_lt index
  have := argWordFin_lt fadeOut
  have := argWordFin_lt fadeIn
  omega

/-- R143: an argument out of range, the threshold and the hold apart. -/
theorem argMonitor_eq_none (bad : 3 < argByte m 3 ∨ 1 < argByte m 4 ∨ 63 < argByte m 5 ∨ 1 < argByte m 6) :
    argMonitor m = none := by
  rw [argMonitor]
  rcases number : argFin m 3 4 with _ | k
  · rfl
  rcases flag : argBool m 4 with _ | b
  · rfl
  rcases slot : argFin m 5 64 with _ | x
  · rfl
  rcases mode : argBool m 6 with _ | c
  · rfl
  have := argFin_lt number
  have := argBool_le flag
  have := argFin_lt slot
  have := argBool_le mode
  omega

/-! ### Commands of a length alone -/

theorem identifyRule_refuses (bad : messageLength m ≠ 3) : identifyRule m s = answer s .badArg := if_neg bad

theorem softResetRule_refuses (bad : messageLength m ≠ 3) : softResetRule m s = answer s .badArg := if_neg bad

theorem readTimingRule_refuses (bad : messageLength m ≠ 3) : readTimingRule m s = answer s .badArg := if_neg bad

theorem cancelCommitRule_refuses (bad : messageLength m ≠ 3) : cancelCommitRule m s = answer s .badArg := if_pos bad

theorem readCommitRule_refuses (bad : messageLength m ≠ 3) : readCommitRule m s = answer s .badArg := if_neg bad

theorem readAlarmsRule_refuses (bad : messageLength m ≠ 3) : readAlarmsRule m s = answer s .badArg := if_neg bad

/-! ### Commands of one argument -/

/-- R160: a length, a port, or a port that is not enabled both ways. -/
theorem setControlRule_refuses
    (bad : messageLength m ≠ 4 ∨ 3 < argByte m 3 ∨
      ∃ p : PortIdx, argByte m 3 = p.val ∧ ((s.ports[p]'p.isLt).enabled = false ∨ (s.egress[p]'p.isLt).enabled = false)) :
    setControlRule m s = answer s .badArg := by
  unfold setControlRule
  split
  · next p port =>
    refine if_neg fun good => ?_
    simp only [Bool.and_eq_true, decide_eq_true_eq] at good
    obtain ⟨⟨length, ingress⟩, egress⟩ := good
    rcases bad with bad | bad | ⟨q, named, off⟩
    · exact bad length
    · exact absurd (argFin_lt port) (by omega)
    · obtain rfl : p = q := Fin.ext ((argFin_eq.mp port).symm.trans named)
      rw [ingress, egress] at off
      simp at off
  · rfl

theorem portRestartRule_refuses (bad : messageLength m ≠ 4 ∨ 3 < argByte m 3) : portRestartRule m s = answer s .badArg := by
  rw [portRestartRule]
  rcases port : argFin m 3 4 with _ | _
  · rfl
  · have := argFin_lt port
    exact if_neg (by omega)

theorem timingConfigRule_refuses (bad : messageLength m ≠ 4 ∨ 4 < argByte m 3) : timingConfigRule m s = answer s .badArg := by
  rw [timingConfigRule]
  rcases source : argSource m with _ | _
  · rfl
  · have := argSource_le source
    exact if_neg (by omega)

theorem copyActiveRule_refuses (bad : messageLength m ≠ 4 ∨ argByte m 3 = 0 ∨ 15 < argByte m 3) :
    copyActiveRule m s = answer s .badArg := by
  rw [copyActiveRule]
  rcases lanes : argMask m 3 with _ | _
  · rfl
  · have := argMask_range lanes
    exact if_pos (by omega)

theorem readProfileRule_refuses (bad : messageLength m ≠ 4 ∨ 7 < argByte m 3) : readProfileRule m s = answer s .badArg := by
  rw [readProfileRule]
  rcases index : argFin m 3 8 with _ | _
  · rfl
  · have := argFin_lt index
    exact if_neg (by omega)

theorem eventAckRule_refuses (bad : messageLength m ≠ 4 + 2 * argByte m 3 ∨ 8 < argByte m 3) :
    eventAckRule m s = answer s .badArg := by
  refine if_neg fun good => ?_
  simp only [Bool.and_eq_true, decide_eq_true_eq] at good
  omega

theorem clearAlarmsRule_refuses (bad : messageLength m ≠ 6 ∨ 131072 ≤ (argTriple m 3).toNat) :
    clearAlarmsRule m s = answer s .badArg := by
  rw [clearAlarmsRule]
  rcases mask : argAlarmMask m 3 with _ | _
  · rfl
  · have := argAlarmMask_lt mask
    exact if_neg (by omega)

theorem alarmConfigRule_refuses (bad : messageLength m ≠ 6 ∨ 131072 ≤ (argTriple m 3).toNat) :
    alarmConfigRule m s = answer s .badArg := by
  rw [alarmConfigRule]
  rcases mask : argAlarmMask m 3 with _ | _
  · rfl
  · have := argAlarmMask_lt mask
    exact if_neg (by omega)

theorem writeProfileRule_refuses
    (bad : messageLength m ≠ 10 ∨ 7 < argByte m 3 ∨ 1023 < (argWord m 4).toNat ∨ 1023 < (argWord m 7).toNat) :
    writeProfileRule m s = answer s .badArg := by
  rw [writeProfileRule]
  rcases bad with length | range
  · rcases argProfile m with _ | _
    · rfl
    · exact if_neg length
  · rw [argProfile_eq_none range]

/-! ### Commands of an index and a flag -/

/-- An index and a flag that are read lie in range, so the length is bad. -/
theorem length_of_read {k : Nat} {index : Fin n} {flag : Bool} (bad : messageLength m ≠ k ∨ n ≤ argByte m 3 ∨ 1 < argByte m 4)
    (first : argFin m 3 n = some index) (second : argBool m 4 = some flag) : messageLength m ≠ k := by
  have := argFin_lt first
  have := argBool_le second
  omega

theorem readPortRule_refuses (bad : messageLength m ≠ 5 ∨ 3 < argByte m 3 ∨ 1 < argByte m 4) :
    readPortRule m s = answer s .badArg := by
  rw [readPortRule]
  rcases index : argFin m 3 4 with _ | _
  · rfl
  rcases flag : argBool m 4 with _ | _
  · rfl
  · exact if_neg (length_of_read bad index flag)

theorem readEntryRule_refuses (bad : messageLength m ≠ 5 ∨ 63 < argByte m 3 ∨ 1 < argByte m 4) :
    readEntryRule m s = answer s .badArg := by
  rw [readEntryRule]
  rcases index : argFin m 3 64 with _ | _
  · rfl
  rcases flag : argBool m 4 with _ | _
  · rfl
  · exact if_neg (length_of_read bad index flag)

theorem readSlotRule_refuses (bad : messageLength m ≠ 5 ∨ 63 < argByte m 3 ∨ 1 < argByte m 4) :
    readSlotRule m s = answer s .badArg := by
  rw [readSlotRule]
  rcases index : argFin m 3 64 with _ | _
  · rfl
  rcases flag : argBool m 4 with _ | _
  · rfl
  · exact if_neg (length_of_read bad index flag)

theorem readMetersRule_refuses (bad : messageLength m ≠ 5 ∨ 3 < argByte m 3 ∨ 1 < argByte m 4) :
    readMetersRule m s = answer s .badArg := by
  rw [readMetersRule]
  rcases index : argFin m 3 4 with _ | _
  · rfl
  rcases flag : argBool m 4 with _ | _
  · rfl
  · exact if_neg (length_of_read bad index flag)

theorem switchRule_refuses (bad : messageLength m ≠ 5 ∨ 63 < argByte m 3 ∨ 1 < argByte m 4) :
    switchRule m s = answer s .badArg := by
  rw [switchRule]
  rcases index : argFin m 3 64 with _ | _
  · rfl
  rcases flag : argBool m 4 with _ | _
  · rfl
  · exact if_pos (length_of_read bad index flag)

theorem egressConfigRule_refuses (bad : messageLength m ≠ 5 ∨ 3 < argByte m 3 ∨ 1 < argByte m 4) :
    egressConfigRule m s = answer s .badArg := by
  rw [egressConfigRule]
  rcases index : argFin m 3 4 with _ | _
  · rfl
  rcases flag : argBool m 4 with _ | _
  · rfl
  · exact if_pos (by simp [length_of_read bad index flag])

theorem commitRule_refuses (bad : messageLength m ≠ 7 ∨ 1 < argByte m 3 ∨ argByte m 4 = 0 ∨ 15 < argByte m 4) :
    commitRule m s = answer s .badArg := by
  rw [commitRule]
  rcases kind : argBool m 3 with _ | _
  · rfl
  rcases lanes : argMask m 4 with _ | _
  · rfl
  · have := argBool_le kind
    have := argMask_range lanes
    exact if_pos (by omega)

/-! ### Commands of more arguments -/

theorem argBool_zero {x : Bool} (read : argBool m i = some x) (off : argByte m i = 0) : x = false := by
  rw [argBool_eq.mp read] at off
  simpa using off

/-- R38, R159: a length, an argument out of range, or a disable of the control port. -/
theorem portConfigRule_refuses
    (bad : messageLength m ≠ 10 ∨ 3 < argByte m 3 ∨ 1 < argByte m 4 ∨ 3 < argByte m 5 ∨ 15 < argByte m 6 ∨ 3 < argByte m 7 ∨
      3 < argByte m 8 ∨ argByte m 9 = 0 ∨ 7 < argByte m 9 ∨ (argByte m 4 = 0 ∧ argByte m 3 = s.channel.control.val)) :
    portConfigRule m s = answer s .badArg := by
  rw [portConfigRule]
  rcases port : argFin m 3 4 with _ | p
  · rfl
  rcases flag : argBool m 4 with _ | enable
  · rfl
  rcases settings : argSettings m with _ | x
  · rfl
  have := argFin_lt port
  have := argBool_le flag
  have := mt argSettings_eq_none (by rw [settings]; exact Option.some_ne_none x)
  obtain length | ⟨off, own⟩ : messageLength m ≠ 10 ∨ (argByte m 4 = 0 ∧ argByte m 3 = s.channel.control.val) := by omega
  · exact if_pos (by simp [length])
  · have control : p = s.channel.control := Fin.ext ((argFin_eq.mp port).symm.trans own)
    exact if_pos (by simp [argBool_zero flag off, control])

theorem monitorConfigRule_refuses
    (bad : messageLength m ≠ 12 ∨ 3 < argByte m 3 ∨ 1 < argByte m 4 ∨ 63 < argByte m 5 ∨ 1 < argByte m 6 ∨
      8388608 < (argTriple m 7).toNat ∨ argWord m 10 = 0#16) :
    monitorConfigRule m s = answer s .badArg := by
  rw [monitorConfigRule]
  rcases monitor : argMonitor m with _ | x
  · rfl
  have := mt argMonitor_eq_none (by rw [monitor]; exact Option.some_ne_none x)
  refine if_neg fun good => ?_
  simp only [monitorLimits, Bool.and_eq_true, decide_eq_true_eq] at good
  obtain ⟨length, threshold, hold⟩ := good
  have held : argWord m 10 ≠ 0#16 := fun zero => by
    rw [zero] at hold
    exact absurd hold (by decide)
  simp only [held, or_false] at bad
  omega

/-- R168: a length, an argument out of range, or a disable of a fixed kind. -/
theorem eventConfigRule_refuses
    (bad : messageLength m ≠ 6 ∨ argByte m 3 = 0 ∨ 20 < argByte m 3 ∨ 1 < argByte m 4 ∨ 3 < argByte m 5 ∨
      (argByte m 4 = 0 ∧ (argByte m 3 = 1 ∨ argByte m 3 = 20))) :
    eventConfigRule m s = answer s .badArg := by
  rw [eventConfigRule]
  rcases kind : argKind m 3 with _ | k
  · rfl
  rcases flag : argBool m 4 with _ | enable
  · rfl
  rcases level : argFin m 5 4 with _ | priority
  · rfl
  have := argKind_range kind
  have := argBool_le flag
  have := argFin_lt level
  obtain length | ⟨off, fixed⟩ : messageLength m ≠ 6 ∨ (argByte m 4 = 0 ∧ (k.val = 0 ∨ k.val = 19)) := by omega
  · exact if_pos (by simp [length])
  · have kept : kindFixed k = true := by
      simp only [kindFixed, Bool.or_eq_true, decide_eq_true_eq, Fin.ext_iff]
      exact fixed
    exact if_pos (by simp [argBool_zero flag off, kept])

/-! ### The rows -/

/-- R155: a row whose rule refuses its message answers BAD_ARG. -/
theorem row_badArg (turn : Turn s older m newer) {code : Byte} {authority : Authority}
    (named : messageCode m = code) (heard : needsControl authority m = true → m.source = s.channel.control)
    {rule : State → CommandResult} (refuses : rule (s.taken older newer) = answer (s.taken older newer) .badArg) :
    (.next (executeCommand code authority m rule s) : Host.Outcome State Fault Refusal) =
      .next ((s.taken older newer).answered m 4#8 []) := by
  have judged : judge authority m rule (s.taken older newer) = answer (s.taken older newer) .badArg := by
    rw [← refuses]
    refine if_neg fun barred => ?_
    simp only [Bool.and_eq_true, decide_eq_true_eq] at barred
    exact barred.2 (heard barred.1)
  rw [executeCommand_of_turn turn named, judged, deliver_answer _ (by exact turn.room)]
  rfl

/-- R155: the port of a read that may ask to clear. -/
theorem heard_of_clearOnly (port : m.source = s.channel.control ∨ m.bytes[4]? ≠ some 1#8) :
    needsControl .clearOnly m = true → m.source = s.channel.control := fun clears =>
  port.resolve_right fun plain => plain (of_decide_eq_true clears)

/-- R155: a row that answers BAD_ARG to its code at any length but its own. -/
def RefusesLengths (s : State) (older newer : List Message) (m : Message) (command : Byte × Nat × Instr) : Prop :=
  messageCode m = command.1 → messageLength m ≠ command.2.1 →
    exec command.2.2 s = .next ((s.taken older newer).answered m 4#8 [])

end Sys2Proof.Machine

namespace Sys2Proof.Proofs
open Machine

/-- Settles O20: each row comes to its owning rule, and the rule refuses the length. -/
theorem wrongLengthsAreRefused : Obligations.WrongLengthsAreRefused := by
  intro s older newer m code length row turn named wrong commands
  have any {rule : State → CommandResult} (code : Byte) (named : messageCode m = code) :=
    row_badArg (authority := .anyPort) (rule := rule) turn named Bool.noConfusion
  rcases commands with reads | ⟨clearing, port⟩ | ⟨changes, control⟩
  · refine (List.forall_iff_forall_mem (p := RefusesLengths s older newer m)).mp ?_ _ reads named wrong
    exact ⟨fun named wrong => any _ named (identifyRule_refuses wrong),
      fun named wrong => any _ named (readTimingRule_refuses wrong),
      fun named wrong => any _ named (readEntryRule_refuses (.inl wrong)),
      fun named wrong => any _ named (readCommitRule_refuses wrong),
      fun named wrong => any _ named (readProfileRule_refuses (.inl wrong)),
      fun named wrong => any _ named (readAlarmsRule_refuses wrong)⟩
  · have clear {rule : State → CommandResult} (code : Byte) (named : messageCode m = code) :=
      row_badArg (authority := .clearOnly) (rule := rule) turn named (heard_of_clearOnly port)
    refine (List.forall_iff_forall_mem (p := RefusesLengths s older newer m)).mp ?_ _ clearing named wrong
    exact ⟨fun named wrong => clear _ named (readPortRule_refuses (.inl wrong)),
      fun named wrong => clear _ named (readSlotRule_refuses (.inl wrong)),
      fun named wrong => clear _ named (readMetersRule_refuses (.inl wrong))⟩
  · have own {rule : State → CommandResult} (code : Byte) (named : messageCode m = code) :=
      row_badArg (authority := .controlOnly) (rule := rule) turn named fun _ => control
    refine (List.forall_iff_forall_mem (p := RefusesLengths s older newer m)).mp ?_ _ changes named wrong
    exact ⟨fun named wrong => own _ named (softResetRule_refuses wrong),
      fun named wrong => own _ named (setControlRule_refuses (.inl wrong)),
      fun named wrong => own _ named (portConfigRule_refuses (.inl wrong)),
      fun named wrong => own _ named (portRestartRule_refuses (.inl wrong)),
      fun named wrong => own _ named (timingConfigRule_refuses (.inl wrong)),
      fun named wrong => own _ named (copyActiveRule_refuses (.inl wrong)),
      fun named wrong => own _ named (commitRule_refuses (.inl wrong)),
      fun named wrong => own _ named (cancelCommitRule_refuses wrong),
      fun named wrong => own _ named (writeProfileRule_refuses (.inl wrong)),
      fun named wrong => own _ named (switchRule_refuses (.inl wrong)),
      fun named wrong => own _ named (egressConfigRule_refuses (.inl wrong)),
      fun named wrong => own _ named (monitorConfigRule_refuses (.inl wrong)),
      fun named wrong => own _ named (eventConfigRule_refuses (.inl wrong)),
      fun named wrong => own _ named (eventAckRule_refuses (.inl wrong)),
      fun named wrong => own _ named (clearAlarmsRule_refuses (.inl wrong)),
      fun named wrong => own _ named (alarmConfigRule_refuses (.inl wrong))⟩

/-- Settles O21: each row comes to its owning rule, and the rule refuses the argument. -/
theorem badArgumentsAreRefused : Obligations.BadArgumentsAreRefused := by
  intro s older newer m code row b turn named argument commands
  obtain rfl : b = fun k => argByte m k := funext argument
  have any {rule : State → CommandResult} := row_badArg (authority := .anyPort) (rule := rule) turn named Bool.noConfusion
  simp only [Prod.mk.injEq] at commands
  rcases commands with ⟨⟨rfl, rfl⟩, bad⟩ | ⟨⟨rfl, rfl⟩, bad⟩ | ⟨clearing, port⟩ | ⟨changes, control⟩
  · exact any (readEntryRule_refuses (.inr bad))
  · exact any (readProfileRule_refuses (.inr bad))
  · have clear {rule : State → CommandResult} :=
      row_badArg (authority := .clearOnly) (rule := rule) turn named (heard_of_clearOnly port)
    rcases clearing with ⟨⟨rfl, rfl⟩, bad⟩ | ⟨⟨rfl, rfl⟩, bad⟩ | ⟨⟨rfl, rfl⟩, bad⟩
    exacts [clear (readPortRule_refuses (.inr bad)),
      clear (readSlotRule_refuses (.inr bad)),
      clear (readMetersRule_refuses (.inr bad))]
  · have own {rule : State → CommandResult} :=
      row_badArg (authority := .controlOnly) (rule := rule) turn named fun _ => control
    rcases changes with ⟨⟨rfl, rfl⟩, bad⟩ | ⟨⟨rfl, rfl⟩, bad⟩ | ⟨⟨rfl, rfl⟩, bad⟩ | ⟨⟨rfl, rfl⟩, bad⟩ | ⟨⟨rfl, rfl⟩, bad⟩ |
      ⟨⟨rfl, rfl⟩, bad⟩ | ⟨⟨rfl, rfl⟩, bad⟩ | ⟨⟨rfl, rfl⟩, bad⟩ | ⟨⟨rfl, rfl⟩, bad⟩ | ⟨⟨rfl, rfl⟩, bad⟩ | ⟨⟨rfl, rfl⟩, bad⟩ |
      ⟨⟨rfl, rfl⟩, bad⟩ | ⟨⟨rfl, rfl⟩, bad⟩ | ⟨⟨rfl, rfl⟩, bad⟩
    exacts [own (setControlRule_refuses (.inr bad)),
      own (portConfigRule_refuses (.inr bad)),
      own (portRestartRule_refuses (.inr bad)),
      own (timingConfigRule_refuses (.inr bad)),
      own (copyActiveRule_refuses (.inr bad)),
      own (commitRule_refuses (.inr bad)),
      own (writeProfileRule_refuses (.inr bad)),
      own (switchRule_refuses (.inr bad)),
      own (egressConfigRule_refuses (.inr bad)),
      own (monitorConfigRule_refuses (.inr bad)),
      own (eventConfigRule_refuses (.inr bad)),
      own (eventAckRule_refuses (.inr bad)),
      own (clearAlarmsRule_refuses (.inr bad)),
      own (alarmConfigRule_refuses (.inr bad))]

end Sys2Proof.Proofs
end

section
/-! PROOFS. The reads without arguments (R162, R52, R91, R180). -/
-- One proof after another: elaborated side by side, the proofs of the whole text come close to the check's memory limit. An
-- index is written with its bound for the same reason.
set_option Elab.async false

namespace Sys2Proof.Machine

variable {s : State} {m : Message}

/-! ### R180: the conditions, bit by bit -/

theorem getLsbD_alarmBitIf (c : Bool) (k n : Fin 17) :
    (alarmBitIf c k).getLsbD n.val = true ↔ c = true ∧ k.val = n.val := by
  cases c <;> simp [alarmBitIf, alarmBit, @eq_comm Nat]

/-- R122. -/
theorem State.doubleLossCondition_iff :
    s.doubleLossCondition = true ↔ ∃ i : SlotIdx, (s.slots[i]'i.isLt).protection.doubleLoss = true := by
  simp only [doubleLossCondition, List.any_eq_true, Vector.mem_toList_iff, Vector.mem_iff_getElem]
  constructor
  · rintro ⟨x, ⟨i, hi, rfl⟩, loss⟩
    exact ⟨⟨i, hi⟩, loss⟩
  · rintro ⟨i, loss⟩
    exact ⟨_, ⟨i.val, i.isLt, rfl⟩, loss⟩

/-- A property of one of the four ports. -/
theorem exists_port {P : PortIdx → Prop} : (∃ p, P p) ↔ P 0 ∨ P 1 ∨ P 2 ∨ P 3 := by
  simp [Fin.exists_fin_succ]

/-- R180: the model's bits are the conditions of R36, R49 and R122. -/
theorem State.conditionBits_conditions (s : State) : ConditionBits s s.conditions := by
  intro n
  simp only [State.conditions, BitVec.getLsbD_or, Bool.or_eq_true, getLsbD_alarmBitIf, doubleLossCondition_iff,
    exists_port, lostCondition, holdoverCondition, decide_eq_true_eq, and_comm (b := _ = n.val), or_assoc,
    @eq_comm _ n.val]
  exact Iff.rfl

/-- The bits are told by the conditions. -/
theorem ConditionBits.eq_conditions {conditions : BitVec 17} (bits : ConditionBits s conditions) :
    conditions = s.conditions :=
  BitVec.eq_of_getLsbD_eq fun n hn =>
    Bool.eq_iff_iff.mpr ((bits ⟨n, hn⟩).trans (s.conditionBits_conditions ⟨n, hn⟩).symm)

/-! ### The rules, at their length -/

/-- R155: a command that any port may send. -/
theorem executeCommand_of_anyPort {older newer : List Message} (turn : Turn s older m newer) {code : Byte}
    (named : messageCode m = code) (rule : State → CommandResult) :
    executeCommand code .anyPort m rule s = (rule (s.taken older newer)).deliver m := by
  rw [executeCommand_of_turn turn named, judge_anyPort]

theorem identifyRule_eq (length : messageLength m = 3) : identifyRule m s = okWith s (identifyResults s) := if_pos length

theorem readTimingRule_eq (length : messageLength m = 3) :
    readTimingRule m s = okWith s.ensureTiming (readTimingResults s.ensureTiming) := if_pos length

theorem readCommitRule_eq (length : messageLength m = 3) : readCommitRule m s = okWith s (readCommitResults s) := if_pos length

theorem readAlarmsRule_eq (length : messageLength m = 3) : readAlarmsRule m s = okWith s (readAlarmsResults s) := if_pos length

/-! ### R52: the codes of READ_TIMING -/

theorem byteOf_timingCode (x : TimingState) :
    byteOf (timingCode x) = match x with
      | .free => 0#8
      | .tracking => 1#8
      | .holdover => 2#8 := by
  cases x <;> rfl

theorem byteOf_assignCode (x : AssignKind) :
    byteOf (assignCode x) = match x with
      | .silent => 0#8
      | .picked => 1#8
      | .repeated => 2#8 := by
  cases x <;> rfl

end Sys2Proof.Machine

namespace Sys2Proof.Proofs
open Machine

/-- Settles O2: each row is its rule on the state in which the processor has taken the command; the timing fix can come before
READ_TIMING, since the fix and the taking of the command leave each other alone. -/
theorem argumentlessReadsAnswer : Obligations.ArgumentlessReadsAnswer := by
  intro s older newer m conditions turn length bits
  refine ⟨fun code => ?_, fun code _ => ?_, fun code fixed => ?_, fun code => ?_, fun code => ?_⟩
  · have row : exec (.identify m) s = .next ((identifyRule m (s.taken older newer)).deliver m) :=
      congrArg Host.Outcome.next (executeCommand_of_anyPort turn code _)
    rw [row, identifyRule_eq length, deliver_okWith _ (by exact turn.room), identifyResults, taken_events]
    cases s.events.cause <;> rfl
  · have row : ∀ v : State, Turn v older m newer → exec (.readTiming m) v =
        .next ((okWith (v.taken older newer).ensureTiming (readTimingResults (v.taken older newer).ensureTiming)).deliver m) :=
      fun v turn => by
        rw [← readTimingRule_eq length]
        exact congrArg Host.Outcome.next (executeCommand_of_anyPort turn code _)
    refine ⟨s.ensureTiming, rfl, ?_⟩
    rw [row s turn, row _ turn.ensureTiming, taken_ensureTiming, taken_ensureTiming,
      State.ensureTiming_of_fixed s.ensureTiming_fixDue]
  · have row : exec (.readTiming m) s = .next ((readTimingRule m (s.taken older newer)).deliver m) :=
      congrArg Host.Outcome.next (executeCommand_of_anyPort turn code _)
    rw [row, readTimingRule_eq length, State.ensureTiming_of_fixed (by exact fixed), deliver_okWith _ (by exact turn.room)]
    simp only [readTimingResults, storeBytes, byteOf_timingCode, byteOf_assignCode]
    rfl
  · have row : exec (.readCommit m) s = .next ((readCommitRule m (s.taken older newer)).deliver m) :=
      congrArg Host.Outcome.next (executeCommand_of_anyPort turn code _)
    rw [row, readCommitRule_eq length, deliver_okWith _ (by exact turn.room), readCommitResults, taken_pendingCommit]
    cases s.pendingCommit with
    | none => rfl
    | some c => simp only [boolByte_decide, taken_timing]
  · have row : exec (.readAlarms m) s = .next ((readAlarmsRule m (s.taken older newer)).deliver m) :=
      congrArg Host.Outcome.next (executeCommand_of_anyPort turn code _)
    obtain rfl := bits.eq_conditions
    rw [row, readAlarmsRule_eq length, deliver_okWith _ (by exact turn.room), readAlarmsResults, boolByte_decide]
    rfl

end Sys2Proof.Proofs
end

section
/-! PROOFS. The look of the command processor (R154, R155, R163), and the SWITCH that comes before the making of its slot's
context (R102, R126). -/
-- One proof after another: elaborated side by side, the proofs of the whole text come close to the check's memory limit. An
-- index is written with its bound for the same reason.
set_option Elab.async false

namespace Sys2Proof.Machine

variable {s : State} {older newer : List Message} {m : Message}

/-! ### R154: the look executes the message at its turn -/

/-- Table 7: the row of each command of a message. -/
def commandRows (m : Message) : List (Byte × Instr) :=
  [(0x01#8, .identify m), (0x02#8, .softReset m), (0x03#8, .setControl m), (0x10#8, .portConfig m),
    (0x11#8, .portRestart m), (0x12#8, .readPort m), (0x18#8, .timingConfig m), (0x19#8, .readTiming m),
    (0x20#8, .stageEntry m), (0x21#8, .copyActive m), (0x22#8, .readEntry m), (0x28#8, .commit m),
    (0x29#8, .cancelCommit m), (0x2A#8, .readCommit m), (0x30#8, .writeProfile m), (0x31#8, .readProfile m),
    (0x32#8, .readSlot m), (0x38#8, .switch m), (0x40#8, .egressConfig m), (0x41#8, .readMeters m),
    (0x42#8, .monitorConfig m), (0x50#8, .eventConfig m), (0x51#8, .eventAck m), (0x52#8, .readAlarms m),
    (0x53#8, .clearAlarms m), (0x54#8, .alarmConfig m)]

theorem commandRows_codes (m : Message) : (commandRows m).map Prod.fst = commandCodes := rfl

theorem code_of_commandRow {code : Byte} {row : Instr} (listed : (code, row) ∈ commandRows m) : code ∈ commandCodes :=
  commandRows_codes m ▸ List.mem_map.mpr ⟨_, listed, rfl⟩

/-- Table 7: no two commands have one code. -/
theorem commandCodes_nodup : commandCodes.Nodup := by
  have ascending : (commandCodes.map BitVec.toNat).IsChain (· < ·) := by decide
  exact .of_map BitVec.toNat ((List.isChain_iff_pairwise.mp ascending).imp Nat.ne_of_lt)

theorem commandRow_unique {code : Byte} {a b : Instr} (ha : (code, a) ∈ commandRows m) (hb : (code, b) ∈ commandRows m) :
    a = b :=
  congrArg Prod.snd (List.inj_on_of_nodup_map (commandRows_codes m ▸ commandCodes_nodup) ha hb rfl)

/-- Every row of a command executes its owning rule, or nothing (R155). -/
theorem exec_of_commandRow : ∀ x ∈ commandRows m, ∃ (authority : Authority) (rule : State → CommandResult),
    ∀ s, exec x.2 s = .next (executeCommand x.1 authority m rule s) := by
  unfold commandRows
  iterate 26 refine List.forall_mem_cons.mpr ⟨⟨_, _, fun _ => rfl⟩, ?_⟩
  exact fun _ none => absurd none List.not_mem_nil

/-- R154, R155: the look runs the row of the message's code, or refuses the code. -/
theorem runMessage_cases (m : Message) (s : State) :
    (∃ row, (messageCode m, row) ∈ commandRows m ∧ exec row s = .next (runMessage m s)) ∨
      messageCode m ∉ commandCodes ∧ runMessage m s = runUnrecognisedCode m s := by
  have listed : ∀ (k : Nat) (code : Byte) (row : Instr), (commandRows m)[k]? = some (code, row) → messageCode m = code →
      (messageCode m, row) ∈ commandRows m := fun k code row place named => named ▸ List.mem_of_getElem? place
  unfold runMessage
  split
  · next code => exact .inl ⟨_, listed 0 _ (.identify m) rfl code, rfl⟩
  · next code => exact .inl ⟨_, listed 1 _ (.softReset m) rfl code, rfl⟩
  · next code => exact .inl ⟨_, listed 2 _ (.setControl m) rfl code, rfl⟩
  · next code => exact .inl ⟨_, listed 3 _ (.portConfig m) rfl code, rfl⟩
  · next code => exact .inl ⟨_, listed 4 _ (.portRestart m) rfl code, rfl⟩
  · next code => exact .inl ⟨_, listed 5 _ (.readPort m) rfl code, rfl⟩
  · next code => exact .inl ⟨_, listed 6 _ (.timingConfig m) rfl code, rfl⟩
  · next code => exact .inl ⟨_, listed 7 _ (.readTiming m) rfl code, rfl⟩
  · next code => exact .inl ⟨_, listed 8 _ (.stageEntry m) rfl code, rfl⟩
  · next code => exact .inl ⟨_, listed 9 _ (.copyActive m) rfl code, rfl⟩
  · next code => exact .inl ⟨_, listed 10 _ (.readEntry m) rfl code, rfl⟩
  · next code => exact .inl ⟨_, listed 11 _ (.commit m) rfl code, rfl⟩
  · next code => exact .inl ⟨_, listed 12 _ (.cancelCommit m) rfl code, rfl⟩
  · next code => exact .inl ⟨_, listed 13 _ (.readCommit m) rfl code, rfl⟩
  · next code => exact .inl ⟨_, listed 14 _ (.writeProfile m) rfl code, rfl⟩
  · next code => exact .inl ⟨_, listed 15 _ (.readProfile m) rfl code, rfl⟩
  · next code => exact .inl ⟨_, listed 16 _ (.readSlot m) rfl code, rfl⟩
  · next code => exact .inl ⟨_, listed 17 _ (.switch m) rfl code, rfl⟩
  · next code => exact .inl ⟨_, listed 18 _ (.egressConfig m) rfl code, rfl⟩
  · next code => exact .inl ⟨_, listed 19 _ (.readMeters m) rfl code, rfl⟩
  · next code => exact .inl ⟨_, listed 20 _ (.monitorConfig m) rfl code, rfl⟩
  · next code => exact .inl ⟨_, listed 21 _ (.eventConfig m) rfl code, rfl⟩
  · next code => exact .inl ⟨_, listed 22 _ (.eventAck m) rfl code, rfl⟩
  · next code => exact .inl ⟨_, listed 23 _ (.readAlarms m) rfl code, rfl⟩
  · next code => exact .inl ⟨_, listed 24 _ (.clearAlarms m) rfl code, rfl⟩
  · next code => exact .inl ⟨_, listed 25 _ (.alarmConfig m) rfl code, rfl⟩
  · refine .inr ⟨?_, rfl⟩
    simp only [commandCodes, List.mem_cons, List.not_mem_nil, or_false, not_or]
    and_intros <;> assumption

theorem exec_of_messageCode {row : Instr} (listed : (messageCode m, row) ∈ commandRows m) (s : State) :
    exec row s = .next (runMessage m s) := by
  rcases runMessage_cases m s with ⟨run, runs, e⟩ | ⟨unknown, -⟩
  · rw [commandRow_unique listed runs, e]
  · exact absurd (code_of_commandRow listed) unknown

theorem runMessage_of_unlisted (unlisted : ∀ row, (messageCode m, row) ∉ commandRows m) (s : State) :
    runMessage m s = runUnrecognisedCode m s := by
  rcases runMessage_cases m s with ⟨run, runs, -⟩ | ⟨-, e⟩
  · exact absurd runs (unlisted run)
  · exact e

theorem runProcessor_of_turn (turn : Turn s older m newer) : s.runProcessor = runMessage m s := by
  have chosen := choice_iff.mpr ⟨older, newer, turn⟩
  unfold State.choice at chosen
  split at chosen
  · next ready =>
    obtain ⟨⟨x, rest⟩, taken, rfl⟩ := Option.map_eq_some_iff.mp chosen
    rw [State.runProcessor, if_pos ready, taken]
  · cases chosen

/-! ### R154: a look that finds nothing -/

theorem takeRoomy_none {room : Message → Bool} {queue : List Message} (held : ∀ x ∈ queue, room x = false) :
    takeRoomy room queue = none := by
  induction queue with
  | nil => rfl
  | cons x rest ih =>
    rw [takeRoomy, held x List.mem_cons_self, ih fun y waiting => held y (List.mem_cons_of_mem x waiting)]
    rfl

theorem runProcessor_of_held (boundary : s.timing.atBoundary = true) (turn : s.channel.turn = true)
    (executing : s.channel.processor = .executing)
    (held : ∀ m ∈ s.channel.queue, 4 ≤ (s.egress[m.source]'m.source.isLt).responses.length) :
    s.runProcessor = s.endTurn := by
  have ready : s.processorReady = true := by simp [State.processorReady, boundary, turn, executing]
  have nothing : s.arbiter = none := takeRoomy_none fun m waiting => by
    rw [← Bool.not_eq_true, Egress.hasRoom_iff]
    exact Nat.not_lt.mpr (held m waiting)
  rw [State.runProcessor, if_pos ready, nothing]

/-! ### R154, R163: no look, and no row of a command -/

theorem processorReady_eq_false
    (idle : s.timing.atBoundary = false ∨ s.channel.turn = false ∨ s.channel.processor ≠ .executing) :
    s.processorReady = false := by
  unfold State.processorReady
  rcases idle with away | spent | halted
  · rw [away]
    rfl
  · rw [spent, Bool.and_false, Bool.false_and]
  · rw [decide_eq_false halted, Bool.and_false]

theorem runProcessor_of_idle (idle : s.processorReady = false) : s.runProcessor = s :=
  if_neg (ne_true_of_eq_false idle)

theorem takeCommand_of_idle (idle : s.processorReady = false) (m : Message) : s.takeCommand m = none :=
  if_neg (ne_true_of_eq_false idle)

theorem executeCommand_of_idle (idle : s.processorReady = false) (code : Byte) (authority : Authority) (m : Message)
    (rule : State → CommandResult) : executeCommand code authority m rule s = s := by
  rw [executeCommand, takeCommand_of_idle idle]
  exact ite_self s

theorem refuseCode_of_idle (idle : s.processorReady = false) (m : Message) : refuseCode m s = s := by
  rw [refuseCode, takeCommand_of_idle idle]
  exact ite_self s

/-! ### R102, R126: the SWITCH before the making -/

/-- R126: the processor's choice is a SWITCH that would move the slot. -/
theorem switchWaits_of_turn {i : SlotIdx} {backup : Bool} (turn : Turn s older m newer)
    (control : m.source = s.channel.control) (code : messageCode m = 0x38#8) (length : messageLength m = 5)
    (slot : argByte m 3 = i.val) (option : argByte m 4 = if backup then 1 else 0)
    (possible : switchPossible s i (namedSelect backup) = true)
    (selected : (s.slots[i]'i.isLt).protection.selected = if backup then .primary else .backup) : s.switchWaits i = true := by
  have other : (if backup then ListSelect.primary else .backup) ≠ namedSelect backup := by
    cases backup <;> exact ListSelect.noConfusion
  rw [← selected] at other
  rw [State.switchWaits, choice_iff.mpr ⟨older, newer, turn⟩]
  simpa [switchMoves, code, control, length, argFin_eq.mpr slot, argBool_eq.mpr option, possible] using other

/-- R126: the SWITCH leaves the works of its slot as they are. -/
theorem due_of_switched {t : State} {i : SlotIdx} {f : Slot → Slot} {status : Byte} {results : List Byte}
    (switched : t = ({ s.taken older newer with slots := updateAt s.slots i f } : State).answered m status results)
    (same : (f (s.slots[i]'i.isLt)).due = (s.slots[i]'i.isLt).due) : (t.slots[i]'i.isLt).due = (s.slots[i]'i.isLt).due := by
  subst switched
  exact (congrArg Slot.due (updateAt_get_self s.slots i f)).trans same

end Sys2Proof.Machine

namespace Sys2Proof.Proofs
open Machine

/-- Settles O22: the look runs the row of its message's code; a processor that does not stand to look takes no command; the row
of a making or a mix runs the look first where a SWITCH waits for it, and after the look it finds nothing to do first. -/
theorem theProcessorLooksOnceABoundary : Obligations.TheProcessorLooksOnceABoundary := by
  intro s rows table
  obtain rfl : rows = commandRows := funext table
  have look : exec (.boundary (.only .look)) s = .next s.runProcessor := rfl
  refine ⟨fun older newer m turn => ⟨fun row listed => ?_, fun unlisted => ?_⟩, fun boundary turn executing held => ?_,
    fun unready => ?_, ?_⟩
  · rw [look, runProcessor_of_turn turn, exec_of_messageCode listed]
  · rw [look, runProcessor_of_turn turn, runMessage_of_unlisted unlisted]
    rfl
  · rw [look, runProcessor_of_held boundary turn executing held]
    rfl
  · have idle := processorReady_eq_false unready
    refine ⟨by rw [look, runProcessor_of_idle idle], fun m => ⟨?_, fun code row listed => ?_⟩⟩
    · exact congrArg Host.Outcome.next (refuseCode_of_idle idle m)
    · obtain ⟨authority, rule, command⟩ := exec_of_commandRow _ listed
      rw [command, executeCommand_of_idle idle]
  · intro older newer m i backup list turn control code length slot option due none named two available selected
    obtain ⟨-, noticed⟩ := switchMovesTheSlot s older newer m i backup list turn control code length slot option named
    obtain ⟨-, -, moved⟩ := noticed (by rw [due])
    have possible : switchPossible s i (namedSelect backup) = true := switchPossible_iff.mpr ⟨two, named ▸ available⟩
    have waits := switchWaits_of_turn turn control code length slot option possible selected
    have row : exec (.switch m) s = .next s.runProcessor := by
      rw [runProcessor_of_turn turn]
      exact exec_of_messageCode (code ▸ List.mem_of_getElem? (i := 17) rfl) s
    have first : s.switchFirst i = s.runProcessor := by
      rw [State.switchFirst, due, if_pos rfl, State.protected_of_taken none (d := ⟨false, false, false, true, true⟩) due]
      exact if_pos waits
    have kept := (due_of_switched (Host.Outcome.next.inj (row.symm.trans (moved two available selected))) rfl).trans due
    have again : s.runProcessor.switchFirst i = s.runProcessor := by
      rw [State.switchFirst_of_looked (runProcessor_looked s), kept, if_pos rfl,
        State.protected_of_taken ((StaysDone.runProcessor s).commit none) (d := ⟨false, false, false, true, true⟩) kept]
    refine ⟨s.runProcessor, row, ?_, ?_⟩
    · have work : ∀ v : State, exec (.boundary (.only (.transition i))) v = .next ((v.switchFirst i).ensureStep i) :=
        fun _ => rfl
      rw [work, work, first, again]
    · have work : ∀ v : State, exec (.boundary (.only (.mix i))) v = .next ((v.switchFirst i).ensureMix i) :=
        fun _ => rfl
      rw [work, work, first, again]

end Sys2Proof.Proofs
end

section
/-! PROOFS. A soft reset taking effect (R164), block by block (R45, R53, R59, R62, R79, R92, R112, R129, R145, R184). -/
-- One proof after another: elaborated side by side, the proofs of the whole text come close to the check's memory limit. An
-- index is written with its bound for the same reason.
set_option Elab.async false

namespace Sys2Proof.Machine

/-! ### R184: the event unit -/

/-- R184: RESET_DONE is the first record of the emptied queue. -/
theorem EventUnit.softReset_raise {u : EventUnit} (on : u.config[EventKind.resetDone.index].enabled = true) :
    u.softReset.raise 0#16 .resetDone 0 3#16 =
      { u with
        queue := [⟨0#16, .resetDone, u.config[EventKind.resetDone.index].priority, 0, 0#16, 3#16, .unsent, false, 0, 0, false⟩]
        sequence := 1#16, loss := 0#16, path := .running, cause := .soft, latched := 0#17 } :=
  (if_pos on).trans (if_pos (Nat.zero_lt_succ 31))

namespace State

variable (s : State)

/-- R164: the soft reset before boundary 0's timing fix. -/
def resetBegun : State := (s.softResetValues.raise .resetDone 0 ResetCause.soft.code).armWorks

theorem softReset_eq : s.softReset = s.resetBegun.fixTiming := rfl

theorem resetBegun_port (p : PortIdx) :
    s.resetBegun.ports[p]'p.isLt = { (s.ports[p]'p.isLt).softReset with windowDue := true, silenceDue := true } := by
  rw [resetBegun, armWorks_port, raise_ports, softResetValues_port]

/-- R53, R45: the fix of boundary 0 finds no port LOCKED, and so the state and the length that the reset gives. -/
theorem resetBegun_timingOutcome :
    s.resetBegun.timingOutcome = (if s.timing.source = none then .free else .holdover, 512) := by
  have source : s.resetBegun.timing.source = s.timing.source := rfl
  rw [timingOutcome_eq, source]
  cases s.timing.source with
  | none => rfl
  | some p =>
    dsimp only
    rw [resetBegun_port, Port.softReset]
    cases (s.ports[p]'p.isLt).enabled <;> rfl

/-- R53, R47: boundary 0 is in progress. -/
theorem softReset_timing :
    s.softReset.timing =
      { s.timing with
        state := if s.timing.source = none then .free else .holdover
        periodLength := 512, periodCounter := 0#16, remaining := 512, fixDue := false } := by
  rw [softReset_eq, fixTiming_timing, resetBegun_timingOutcome]
  rfl

/-- R184, R49: RESET_DONE alone, and HOLDOVER latched where its condition holds; the fix changes no timing state, and so raises
nothing. -/
theorem softReset_events (on : s.events.config[EventKind.resetDone.index].enabled = true) :
    s.softReset.events =
      { s.events with
        queue := [⟨0#16, .resetDone, s.events.config[EventKind.resetDone.index].priority, 0, 0#16, 3#16, .unsent, false,
          0, 0, false⟩]
        sequence := 1#16, loss := 0#16, path := .running, cause := .soft
        latched := if s.timing.source = none then 0#17 else BitVec.twoPow 17 12 } := by
  have raised : s.resetBegun.events = s.events.softReset.raise 0#16 .resetDone 0 3#16 := rfl
  have state : s.resetBegun.timing.state = if s.timing.source = none then .free else .holdover := rfl
  rw [softReset_eq, fixTiming_eq, resetBegun_timingOutcome, state, raised, EventUnit.softReset_raise on]
  dsimp only
  rw [if_pos rfl]
  cases s.timing.source with
  | none => rfl
  | some p =>
    dsimp only
    rw [BitVec.zero_or]
    rfl

/-- R164: what the fix of boundary 0 leaves alone. -/
theorem softReset_writes : ∃ timing events, s.softReset = { s.resetBegun with timing := timing, events := events } :=
  s.resetBegun.fixTiming_writes

theorem softReset_port (p : PortIdx) :
    s.softReset.ports[p]'p.isLt = { (s.ports[p]'p.isLt).softReset with windowDue := true, silenceDue := true } := by
  obtain ⟨timing, events, hw⟩ := s.softReset_writes
  rw [hw]
  exact s.resetBegun_port p

theorem softReset_slot (i : SlotIdx) :
    s.softReset.slots[i]'i.isLt = { s.softResetSlot i with due := nothingDue.arm } := by
  have values : s.softResetValues.slots[i]'i.isLt = s.softResetSlot i := Vector.getElem_ofFn i.isLt
  obtain ⟨timing, events, hw⟩ := s.softReset_writes
  rw [hw]
  dsimp only
  rw [resetBegun, armWorks_slot, raise_slots, values]
  rfl

theorem softReset_egress (e : PortIdx) :
    s.softReset.egress[e]'e.isLt =
      { s.egress[e]'e.isLt with responses := [], transmitter := none, serviceDue := true, frameDue := true } := by
  obtain ⟨timing, events, hw⟩ := s.softReset_writes
  rw [hw]
  dsimp only
  rw [resetBegun, armWorks_egress, raise_egress, softResetValues_egress]

theorem softReset_monitor (n : Fin 4) :
    s.softReset.monitors[n]'n.isLt = { s.monitors[n]'n.isLt with state := .under, runCount := 0, evalDue := true } := by
  have values : s.softResetValues.monitors[n]'n.isLt = (s.monitors[n]'n.isLt).softReset := mapTable_getElem _ _ _ _
  have armed : s.resetBegun.monitors[n]'n.isLt = { s.softResetValues.monitors[n]'n.isLt with evalDue := true } :=
    mapTable_getElem _ _ _ _
  obtain ⟨timing, events, hw⟩ := s.softReset_writes
  rw [hw]
  dsimp only
  rw [armed, values]
  rfl

/-- R145: every source reads 0 to the mixer. -/
theorem softReset_readSource (i : SlotIdx) : s.softReset.readSource i = 0 := by
  refine readSource_silent _ i ?_
  rw [softReset_port]
  obtain ⟨-, -, -, -, heard⟩ := softReset_store (s.ports[laneOf i]'(laneOf i).isLt).store
  exact heard

/-- R59, R62: a store whose pick is still due gives its period silence. -/
theorem softReset_store_of_due {st : ElasticStore} (due : st.pickDue = true) :
    st.softReset.kind = .silent ∧ st.softReset.assigned = silentFrame := by
  rw [ElasticStore.softReset, if_pos due]
  exact ⟨rfl, rfl⟩

/-- R59, R62: a store whose pick is past keeps what it gave. -/
theorem softReset_store_of_past {st : ElasticStore} (past : st.pickDue = false) :
    st.softReset.kind = st.kind ∧ st.softReset.assigned = st.assigned := by
  rw [ElasticStore.softReset, if_neg (ne_true_of_eq_false past)]
  exact ⟨rfl, rfl⟩

variable {s}

/-! ### R164: when the row takes the reset in -/

/-- R164: a response to SOFT_RESET that has been fully sent. -/
theorem noSoftReset_iff :
    NoSoftReset s ↔ s.channel.processor ≠ .resetDue ∧
      ∀ (e : PortIdx) (x : Sending), (s.egress[e]'e.isLt).transmitter = some x → x.origin = .softReset →
        (s.egress[e]'e.isLt).serviceDue = false ∨ x.next < (x.bytes.length + 2) / 3 := by
  refine and_congr_right fun _ => forall₂_congr fun e x => ?_
  rw [Egress.fullySent_eq_some]
  refine ⟨fun unsent sending reset => ?_, fun left ⟨sending, due, last⟩ reset => ?_⟩
  · by_contra sent
    obtain ⟨due, last⟩ := not_or.mp sent
    exact unsent ⟨sending, Bool.not_eq_false _ ▸ due, Nat.le_of_not_lt last⟩ reset
  · rcases left sending reset with taken | more
    · exact Bool.noConfusion (due.symm.trans taken)
    · omega

theorem exec_softResetTakesEffect_of_due (boundary : s.timing.atBoundary = true) (due : ¬ NoSoftReset s) :
    exec .softResetTakesEffect s = .next s.softReset := by
  have reset : s.softResetDue = true := by
    rw [← Bool.not_eq_false, softResetDue_eq_false_iff boundary]
    exact due
  exact congrArg Host.Outcome.next (if_pos reset)

theorem exec_softResetTakesEffect_of_passed (passed : s.timing.atBoundary = false) :
    exec .softResetTakesEffect s = .next s := by
  have undue : s.softResetDue = false := by rw [softResetDue, passed, Bool.false_and]
  exact congrArg Host.Outcome.next (if_neg (ne_true_of_eq_false undue))

end State

end Sys2Proof.Machine

namespace Sys2Proof.Proofs
open Machine

/-- Settles O24: the row is the soft reset, whose values each block's lemma gives; the fix of boundary 0 comes with it. -/
theorem softResetTakesEffect : Obligations.SoftResetTakesEffect := by
  refine ⟨fun s boundary sent on => ?_, fun s undue => ?_⟩
  · have due : ¬ NoSoftReset s := by
      rw [State.noSoftReset_iff]
      rintro ⟨executing, unsent⟩
      rcases sent with halted | ⟨e, x, sending, reset, service, last⟩
      · exact executing halted
      · rcases unsent e x sending reset with taken | more
        · exact Bool.noConfusion (service.symm.trans taken)
        · omega
    obtain ⟨timing, events, hw⟩ := s.softReset_writes
    refine ⟨s.softReset, State.exec_softResetTakesEffect_of_due boundary due, ?_, ?_, ?_, ?_, ?_, ?_, s.softReset_timing,
      fun p => ?_, s.softReset_readSource, fun i => ?_, s.softReset_monitor, s.softReset_egress, ?_,
      s.softReset_events on⟩
    · rw [hw]; rfl
    · rw [hw]; rfl
    · rw [hw]; rfl
    · rw [hw]; rfl
    · rw [hw]; rfl
    · rw [hw]; rfl
    · obtain ⟨fifo, last, pick, -, -⟩ := State.softReset_store (s.ports[p]'p.isLt).store
      rw [s.softReset_port p]
      exact ⟨rfl, rfl, rfl, rfl, rfl, rfl, rfl, rfl, rfl, rfl, rfl, rfl, rfl, rfl, rfl, rfl, rfl, rfl, rfl, fifo, last, pick,
        State.softReset_store_of_due, State.softReset_store_of_past⟩
    · rw [s.softReset_slot i]
      exact ⟨rfl, rfl, rfl, rfl, rfl, rfl⟩
    · rw [hw]; rfl
  · by_cases boundary : s.timing.atBoundary = true
    · refine State.exec_softResetTakesEffect_of_none boundary (State.noSoftReset_iff.mpr (undue.resolve_left ?_))
      rw [boundary]
      decide
    · exact State.exec_softResetTakesEffect_of_passed (by simpa using boundary)

end Sys2Proof.Proofs
end

section
/-! PROOFS. The event queue (R167 to R178): what each operation of the event unit keeps of the law of its queue, and what a
block's events and alarms make of the event unit. -/
-- One proof after another: elaborated side by side, the proofs of the whole text come close to the check's memory limit. An
-- index is written with its bound for the same reason.
set_option Elab.async false

namespace Sys2Proof.Machine

namespace EventUnit

variable {u v : EventUnit}

/-- R173: the records that count toward the four. -/
def busy (r : EventRecord) : Bool := r.state = .outstanding || r.inTransmission

theorem busy_of_unsent {r : EventRecord} (unsent : r.state = .unsent) (waiting : r.inTransmission = false) :
    busy r = false := by
  rw [busy, unsent, waiting]
  rfl

/-- R174, R175: a timeout leaves its record UNSENT, or held by the stall. -/
theorem timeOutRecord_eq (r : EventRecord) :
    timeOutRecord r =
      { r with
        state := if r.sendCount < 4 then .unsent else r.state
        stalled := if r.sendCount < 4 then r.stalled else true } := by
  unfold timeOutRecord Config.sendLimit
  split <;> rfl

namespace sound

theorem few (h : u.sound) : u.queue.length ≤ 32 := by
  obtain ⟨few, -⟩ := h
  exact few

theorem distinct (h : u.sound) : (u.queue.map (·.sequence)).Nodup := by
  obtain ⟨-, distinct, -⟩ := h
  exact distinct

theorem ordered (h : u.sound) : u.queue.Pairwise fun a b => b.priority ≤ a.priority := by
  obtain ⟨-, -, ordered, -⟩ := h
  exact ordered

theorem limited (h : u.sound) : u.queue.countP busy ≤ 4 := by
  obtain ⟨-, -, -, limited, -⟩ := h
  exact limited

theorem unsent (h : u.sound) {r : EventRecord} (queued : r ∈ u.queue) (sending : r.inTransmission = true) :
    r.state = .unsent := by
  obtain ⟨-, -, -, -, unsent⟩ := h
  exact unsent r queued sending

/-- The law is a law of the queue. -/
theorem of_queue (h : u.sound) (queue : v.queue = u.queue) : v.sound := by
  unfold sound
  rw [queue]
  exact h

/-- A queue that some records have left. -/
theorem sublist (h : u.sound) (left : v.queue.Sublist u.queue) : v.sound :=
  ⟨left.length_le.trans h.few, h.distinct.sublist (left.map _), h.ordered.sublist left, (left.countP_le).trans h.limited,
    fun _ queued => h.unsent (left.subset queued)⟩

/-- R169, R170: a record with a number of its own joins a queue with room in its place. -/
theorem insert (h : u.sound) {r : EventRecord} (room : u.queue.length < 32) (fresh : r.sequence ∉ u.queue.map (·.sequence))
    (unsent : r.state = .unsent) (waiting : r.inTransmission = false) (queue : v.queue = insertRecord r u.queue) :
    v.sound := by
  have joined := insertRecord_perm r u.queue
  unfold sound
  rw [queue]
  refine ⟨joined.length_eq.trans_le room, ?_, insertRecord_pairwise h.ordered, ?_, fun x queued sending => ?_⟩
  · rw [(joined.map _).nodup_iff, List.map_cons, List.nodup_cons]
    exact ⟨fresh, h.distinct⟩
  · refine (joined.countP_eq busy).trans_le ?_
    rw [List.countP_cons_of_neg (by rw [busy_of_unsent unsent waiting]; decide)]
    exact h.limited
  · rcases List.mem_cons.mp (joined.mem_iff.mp queued) with rfl | old
    · exact unsent
    · exact h.unsent old sending

/-- A change of the records by which none moves in the queue. -/
theorem map (h : u.sound) {f : EventRecord → EventRecord} (sequence : ∀ r, (f r).sequence = r.sequence)
    (priority : ∀ r, (f r).priority = r.priority) (limited : (u.queue.map f).countP busy ≤ 4)
    (unsent : ∀ r ∈ u.queue, (f r).inTransmission = true → (f r).state = .unsent) :
    ({ u with queue := u.queue.map f } : EventUnit).sound := by
  refine ⟨(List.length_map f).trans_le h.few, ?_, ?_, limited, fun x queued => ?_⟩
  · rw [List.map_map]
    exact (congrArg List.Nodup (List.map_congr_left fun r _ => sequence r)).mpr h.distinct
  · rw [List.pairwise_map]
    simp only [priority]
    exact h.ordered
  · obtain ⟨r, old, rfl⟩ := List.mem_map.mp queued
    exact unsent r old

/-- A change by which none comes to count toward the four. -/
theorem map_idle (h : u.sound) {f : EventRecord → EventRecord} (sequence : ∀ r, (f r).sequence = r.sequence)
    (priority : ∀ r, (f r).priority = r.priority) (idle : ∀ r, busy (f r) = true → busy r = true)
    (unsent : ∀ r, (r.inTransmission = true → r.state = .unsent) → (f r).inTransmission = true → (f r).state = .unsent) :
    ({ u with queue := u.queue.map f } : EventUnit).sound := by
  refine h.map sequence priority ?_ fun r old => unsent r (h.unsent old)
  rw [List.countP_map]
  exact (List.countP_mono_left fun r _ => idle r).trans h.limited

/-- The same for the records with one number. -/
theorem updateRecord (h : u.sound) (n : Word16) {f : EventRecord → EventRecord}
    (sequence : ∀ r, (f r).sequence = r.sequence) (priority : ∀ r, (f r).priority = r.priority)
    (idle : ∀ r, busy (f r) = true → busy r = true)
    (unsent : ∀ r, (r.inTransmission = true → r.state = .unsent) → (f r).inTransmission = true → (f r).state = .unsent) :
    (u.updateRecord n f).sound := by
  refine h.map_idle (fun r => ?_) (fun r => ?_) (fun r => ?_) fun r => ?_ <;> split
  · exact sequence r
  · rfl
  · exact priority r
  · rfl
  · exact idle r
  · exact id
  · exact unsent r
  · exact id

/-! ### Events and losses -/

/-- R170, R171: a record enters a queue with room. -/
theorem enter (h : u.sound) (room : u.queue.length < 32) (stamp : Word16) (kind : EventKind) (subject : SlotIdx)
    (detail : Word16) : (u.enter stamp kind subject detail).sound := by
  refine h.insert room ?_ rfl rfl rfl
  have free := freeSequence_fresh (u.queue.map (·.sequence)) (by rw [List.length_map]; omega) u.sequence
  rw [List.length_map] at free
  exact free

theorem raise (h : u.sound) (stamp : Word16) (kind : EventKind) (subject : SlotIdx) (detail : Word16) :
    (u.raise stamp kind subject detail).sound := by
  rcases u.raise_cases stamp kind subject detail with ⟨-, e⟩ | ⟨-, room, e⟩ | ⟨-, -, e⟩ <;> rw [e]
  · exact h
  · exact h.enter room _ _ _ _
  · exact h.of_queue rfl

/-- R172: the record of a loss takes a place freed. -/
theorem reportLoss (h : u.sound) (room : u.queue.length < 32) (stamp : Word16) : (u.reportLoss stamp).sound := by
  unfold EventUnit.reportLoss
  split
  · exact h
  · exact (h.enter room stamp .eventLoss 0 u.loss).of_queue rfl

/-! ### Reports -/

/-- R173: a report is offered while three or fewer are under way, and its record is UNSENT. -/
theorem of_offered {r : EventRecord} (offered : u.offered = some r) :
    u.queue.countP busy < 4 ∧ r ∈ u.queue ∧ r.state = .unsent := by
  unfold EventUnit.offered at offered
  split at offered
  · next running =>
    rw [Bool.and_eq_true, decide_eq_true_eq, decide_eq_true_eq] at running
    have waits := List.find?_some offered
    rw [offerable, Bool.and_eq_true, decide_eq_true_eq] at waits
    exact ⟨running.2, List.mem_of_find?_eq_some offered, waits.1⟩
  · cases offered

/-- R173: with the report offered, at most four are under way. -/
theorem beginTransmission (h : u.sound) {r : EventRecord} (offered : u.offered = some r) :
    (u.beginTransmission r.sequence).sound := by
  obtain ⟨room, queued, unsent⟩ := of_offered offered
  refine h.map (fun x => ?_) (fun x => ?_) ?_ fun x old => ?_
  · split <;> rfl
  · split <;> rfl
  · obtain ⟨before, after, queue⟩ := List.append_of_mem queued
    have begun : (u.beginTransmission r.sequence).queue = before ++ { r with inTransmission := true } :: after :=
      congrArg EventUnit.queue (updateRecord_queue _ queue h.distinct)
    refine (congrArg (List.countP busy) begun).trans_le ?_
    rw [queue] at room
    simp only [List.countP_append, List.countP_cons] at room ⊢
    split <;> omega
  · split
    · next same =>
      obtain rfl := List.inj_on_of_nodup_map h.distinct old queued same
      exact fun _ => unsent
    · exact h.unsent old

/-- R157. -/
theorem abandonTransmission (h : u.sound) (n : Word16) : (u.abandonTransmission n).sound :=
  h.updateRecord n (fun _ => rfl) (fun _ => rfl) (fun r => by unfold busy; cases r.inTransmission <;> simp)
    fun _ _ => Bool.noConfusion

/-- R174: a report in transmission becomes OUTSTANDING, which counts as well. -/
theorem reportSent (h : u.sound) (n : Word16) : (u.reportSent n).sound := by
  refine h.updateRecord n (fun r => ?_) (fun r => ?_) (fun r => ?_) fun r => ?_ <;> split
  · rfl
  · rfl
  · rfl
  · rfl
  · next sending => exact fun _ => by rw [busy, sending, Bool.or_true]
  · exact id
  · exact fun _ => Bool.noConfusion
  · exact id

/-- R174. -/
theorem ageRecords (h : u.sound) : u.ageRecords.sound := by
  refine h.map_idle (fun r => ?_) (fun r => ?_) (fun r => ?_) fun r => ?_ <;> split
  · rfl
  · rfl
  · rfl
  · rfl
  all_goals exact id

/-- R174, R175: a timeout leaves an OUTSTANDING record UNSENT, or held by the stall. -/
theorem timeOut (h : u.sound) (n : Word16) : (u.timeOut n).sound := by
  refine timeOut_eq n u ▸ (h.map_idle (f := fun r => if expires [n] r then timeOutRecord r else r) (fun r => ?_)
    (fun r => ?_) (fun r => ?_) fun r old => ?_).of_queue rfl
  all_goals
    rw [timeOutRecord_eq]
    split
  · rfl
  · rfl
  · rfl
  · rfl
  · unfold busy
    dsimp only
    split
    · cases r.inTransmission <;> simp
    · exact id
  · exact id
  · exact fun sending => by rw [old sending, ite_self]
  · exact old

/-- R176: the records the stall held become UNSENT. -/
theorem resume (h : u.sound) : u.resume.sound := by
  refine h.map_idle (fun _ => rfl) (fun _ => rfl) (fun r => ?_) fun r old sending => ?_
  · cases r.stalled <;> cases sending : r.inTransmission <;> simp [busy, sending]
  · dsimp only at sending ⊢
    rw [old sending, ite_self]

/-- R178. -/
theorem moveControl (h : u.sound) : u.moveControl.sound :=
  h.map_idle (fun _ => rfl) (fun _ => rfl) (fun r => by unfold busy; cases r.inTransmission <;> simp) fun _ _ _ => rfl

/-- R176: an acknowledgement frees the place that the record of a loss takes. -/
theorem acknowledge (h : u.sound) (stamp n : Word16) : (u.acknowledge stamp n).1.sound := by
  unfold EventUnit.acknowledge
  split
  · next named =>
    obtain ⟨r, queued, matching⟩ := List.any_eq_true.mp named
    have fewer := List.length_eraseP_of_mem queued matching
    have least := List.length_pos_of_mem queued
    have few := h.few
    refine (h.sublist (List.eraseP_sublist (p := acknowledges n))).reportLoss ?_ stamp
    dsimp only
    omega
  · exact h

theorem acknowledgeAll (h : u.sound) (stamp : Word16) (numbers : List Word16) : (u.acknowledgeAll stamp numbers).1.sound := by
  induction numbers generalizing u with
  | nil => exact h
  | cons n numbers ih => exact ih (h.acknowledge stamp n)

end sound

/-! ### Events raised and alarms latched -/

/-- What the blocks make of the event unit by raising events and latching alarms (R167, R179). -/
inductive Raised (u : EventUnit) : EventUnit → Prop where
  | refl : Raised u u
  | raise {v : EventUnit} (before : Raised u v) (stamp : Word16) (kind : EventKind) (subject : SlotIdx) (detail : Word16) :
      Raised u (v.raise stamp kind subject detail)
  | latch {v : EventUnit} (before : Raised u v) (n : Fin 17) : Raised u (EventUnit.latch n v)

namespace Raised

theorem trans {w : EventUnit} (h : u.Raised v) (k : v.Raised w) : u.Raised w := by
  induction k with
  | refl => exact h
  | raise _ stamp kind subject detail ih => exact ih.raise stamp kind subject detail
  | latch _ n ih => exact ih.latch n

theorem sound (h : u.Raised v) (lawful : u.sound) : v.sound := by
  induction h with
  | refl => exact lawful
  | raise _ stamp kind subject detail ih => exact ih.raise stamp kind subject detail
  | latch _ n ih => exact ih.of_queue rfl

theorem config (h : u.Raised v) : v.config = u.config := by
  induction h with
  | refl => rfl
  | raise _ stamp kind subject detail ih => rw [raise_config, ih]
  | latch _ n ih => exact ih

/-- R179: an alarm that is latched stays latched. -/
theorem latched (h : u.Raised v) {k : Nat} (before : u.latched.getLsbD k = true) : v.latched.getLsbD k = true := by
  induction h with
  | refl => exact before
  | raise _ stamp kind subject detail ih => exact raise_latched _ stamp kind subject detail ih
  | latch _ n ih => rw [latch_latched, ih, Bool.true_or]

end Raised

theorem latch_self (n : Fin 17) (u : EventUnit) : (EventUnit.latch n u).latched.getLsbD n.val = true := by
  rw [latch_latched, decide_eq_true rfl, Bool.or_true]

end EventUnit

end Sys2Proof.Machine
end

section
/-! PROOFS. What each block's operations report to the event unit (R167, R179): events and alarms, and the alarm of every
condition that begins (R36, R49, R122). -/
-- One proof after another: elaborated side by side, the proofs of the whole text come close to the check's memory limit. An
-- index is written with its bound for the same reason.
set_option Elab.async false

namespace Sys2Proof.Machine

/-- R49: the fix latches HOLDOVER where its condition holds. -/
theorem State.fixTiming_latched (s : State) (held : s.fixTiming.timing.state = .holdover) :
    s.fixTiming.events.latched.getLsbD 12 = true := by
  rw [fixTiming_timing] at held
  unfold fixTiming
  dsimp only at held ⊢
  rw [if_pos held]
  exact EventUnit.latch_self alarmHoldover _

/-- From `s` to `t` the event unit has taken events and alarms alone, and the alarm of every condition that holds in `t` and
not in `s` is latched. -/
structure Reports (s t : State) : Prop where
  raised : s.events.Raised t.events
  lost : ∀ p : PortIdx, (t.ports[p]'p.isLt).state = .lost →
    (s.ports[p]'p.isLt).state = .lost ∨ t.events.latched.getLsbD p.val = true
  holdover : t.timing.state = .holdover → s.timing.state = .holdover ∨ t.events.latched.getLsbD 12 = true
  loss : ∀ i : SlotIdx, (t.slots[i]'i.isLt).protection.doubleLoss = true →
    (s.slots[i]'i.isLt).protection.doubleLoss = true ∨ t.events.latched.getLsbD 13 = true

namespace Reports

variable {s t u : State} {p : PortIdx} {i : SlotIdx}

/-- No condition begins. -/
theorem of_conditions (raised : s.events.Raised t.events)
    (lost : ∀ p : PortIdx, (t.ports[p]'p.isLt).state = .lost → (s.ports[p]'p.isLt).state = .lost)
    (holdover : t.timing.state = .holdover → s.timing.state = .holdover)
    (loss : ∀ i : SlotIdx, (t.slots[i]'i.isLt).protection.doubleLoss = true →
      (s.slots[i]'i.isLt).protection.doubleLoss = true) : Reports s t where
  raised := raised
  lost p h := .inl (lost p h)
  holdover h := .inl (holdover h)
  loss i h := .inl (loss i h)

/-- The ports, the timing unit and the slots are as they were. -/
theorem of_eq (raised : s.events.Raised t.events) (ports : t.ports = s.ports) (timing : t.timing = s.timing)
    (slots : t.slots = s.slots) : Reports s t :=
  of_conditions raised (fun p => by rw [ports]; exact id) (by rw [timing]; exact id) fun i => by rw [slots]; exact id

theorem refl (s : State) : Reports s s := of_eq .refl rfl rfl rfl

theorem trans (h : Reports s t) (k : Reports t u) : Reports s u where
  raised := h.raised.trans k.raised
  lost p now := (k.lost p now).elim (fun before => (h.lost p before).imp_right k.raised.latched) .inr
  holdover now := (k.holdover now).elim (fun before => (h.holdover before).imp_right k.raised.latched) .inr
  loss i now := (k.loss i now).elim (fun before => (h.loss i before).imp_right k.raised.latched) .inr

theorem raise (h : Reports s t) (kind : EventKind) (subject : SlotIdx) (detail : Word16) :
    Reports s (t.raise kind subject detail) := h.trans (of_eq (.raise .refl _ _ _ _) rfl rfl rfl)

theorem latch (h : Reports s t) (n : Fin 17) : Reports s (t.latch n) := h.trans (of_eq (.latch .refl n) rfl rfl rfl)

/-! ### Updates of one port, and of one slot -/

/-- One port is written, and its LOST alarm latched where it has come to LOST. -/
theorem of_port {f : Port → Port} {events : EventUnit} (raised : s.events.Raised events)
    (lost : (f (s.ports[p]'p.isLt)).state = .lost →
      (s.ports[p]'p.isLt).state = .lost ∨ events.latched.getLsbD p.val = true) :
    Reports s { s with ports := updateAt s.ports p f, events := events } where
  raised := raised
  lost q := by
    dsimp only
    by_cases same : p = q
    · subst same
      rw [updateAt_get_self]
      exact lost
    · rw [updateAt_get_ne _ _ same]
      exact .inl
  holdover := .inl
  loss _ := .inl

theorem updatePort (h : Reports s t) {f : Port → Port}
    (lost : (f (t.ports[p]'p.isLt)).state = .lost → (t.ports[p]'p.isLt).state = .lost) : Reports s (t.updatePort p f) :=
  h.trans (of_port .refl fun now => .inl (lost now))

/-- One slot is written, and DOUBLE_LOSS latched where the slot has come to it. -/
theorem of_slot {f : Slot → Slot} {events : EventUnit} (raised : s.events.Raised events)
    (loss : (f (s.slots[i]'i.isLt)).protection.doubleLoss = true →
      (s.slots[i]'i.isLt).protection.doubleLoss = true ∨ events.latched.getLsbD 13 = true) :
    Reports s { s with slots := updateAt s.slots i f, events := events } where
  raised := raised
  lost _ := .inl
  holdover := .inl
  loss j := by
    dsimp only
    by_cases same : i = j
    · subst same
      rw [updateAt_get_self]
      exact loss
    · rw [updateAt_get_ne _ _ same]
      exact .inl

theorem updateSlot (h : Reports s t) {f : Slot → Slot}
    (loss : (f (t.slots[i]'i.isLt)).protection.doubleLoss = true → (t.slots[i]'i.isLt).protection.doubleLoss = true) :
    Reports s (t.updateSlot i f) :=
  h.trans (of_slot .refl fun now => .inl (loss now))

/-! ### The ingress ports -/

/-- R28, R36: a failed qualification that goes back to LOST latches its alarm. -/
theorem failQualification (s : State) (p : PortIdx) (detail : Word16) : Reports s (s.failQualification p detail) := by
  unfold State.failQualification
  dsimp only
  split
  · exact of_port (.latch (.latch (.raise .refl _ _ _ _) _) _) fun _ => .inr (EventUnit.latch_self (alarmLost p) _)
  · next found =>
    refine of_port (.latch (.raise .refl _ _ _ _) _) fun now => absurd (decide_eq_true ?_) found
    exact (congrArg Port.state (s.updatePort_port p Port.failQualification)).trans now

/-- R35, R36. -/
theorem loseSource (s : State) (p : PortIdx) : Reports s (s.loseSource p) :=
  of_port (.latch (.raise .refl _ _ _ _) _) fun _ => .inr (EventUnit.latch_self (alarmLost p) _)

/-- R24, R25. -/
theorem takeWindow (s : State) (p : PortIdx) : Reports s (s.takeWindow p) := by
  have counted : Reports s (s.updatePort p Port.countDown) := (refl s).updatePort id
  unfold State.takeWindow State.completeWindow
  dsimp only
  split
  · split
    · exact counted.updatePort PortState.noConfusion
    · exact counted.trans (failQualification _ p _)
  · exact counted

/-- R60. -/
theorem reportSlip (h : Reports s t) (p : PortIdx) (detail : Word16) : Reports s (t.reportSlip p detail) := by
  unfold State.reportSlip
  split
  · exact (h.latch _).raise _ _ _
  · exact h.latch _

theorem pickFrame (s : State) (p : PortIdx) : Reports s (s.pickFrame p) := by
  have picked : Reports s (s.updatePort p fun x => { x with store := x.store.pick x.isLocked }) := (refl s).updatePort id
  unfold State.pickFrame
  dsimp only
  split
  · exact (picked.updatePort id).reportSlip p _
  · exact picked

theorem mgmtError (h : Reports s t) (p : PortIdx) (detail : Word16) : Reports s (t.mgmtError p detail) :=
  (h.updatePort id).raise _ _ _

theorem service (s : State) (p : PortIdx) : KeptByService (Reports s) p where
  buffer _ _ h := h.updatePort id
  error _ detail h := h.mgmtError p detail
  queued _ _ h := h.trans (of_eq .refl rfl rfl rfl)
  placed _ _ h := h.trans (of_eq .refl rfl rfl rfl)

theorem takeSilence (s : State) (p : PortIdx) : Reports s (s.takeSilence p) := by
  have counted : Reports s (s.updatePort p Port.countSilence) := (refl s).updatePort id
  unfold State.takeSilence
  dsimp only
  split
  · exact (service s p).rejectFragment _ counted
  · exact counted

/-! ### Frames -/

theorem storeArrival (s : State) (p : PortIdx) (r : FrameRecord) : Reports s (s.storeArrival p r) := by
  have appended : Reports s ((s.updatePort p fun x => x.record s.timing.tick r.sequence).updatePort p
      fun x => { x with store := x.store.append r }) := ((refl s).updatePort id).updatePort id
  unfold State.storeArrival State.appendFrame
  dsimp only
  split
  · exact (appended.updatePort id).reportSlip p _
  · exact appended

theorem lockIfPrimed (h : Reports s t) (p : PortIdx) : Reports s (t.lockIfPrimed p) := by
  unfold State.lockIfPrimed
  split
  · exact (h.updatePort PortState.noConfusion).raise _ _ _
  · exact h

theorem qualifyArrival (s : State) (p : PortIdx) (sequence : Byte) : Reports s (s.qualifyArrival p sequence) := by
  have counted : Reports s (s.updatePort p fun x => x.countArrival s.timing.tick sequence) := (refl s).updatePort id
  unfold State.qualifyArrival
  dsimp only
  split
  · exact counted.trans (failQualification _ p _)
  · exact counted

/-- R36: the port's state machine, by the state it finds. -/
theorem portArrival (s : State) (p : PortIdx) (r : FrameRecord) (reached : Bool) :
    Reports s (s.portArrival p r reached) := by
  have waiting : Reports s (if reached then s.updatePort p fun x => x.enterQualify s.timing.tick r.sequence else s) := by
    split
    · exact (refl s).updatePort PortState.noConfusion
    · exact refl s
  unfold State.portArrival
  split
  · exact waiting
  · exact waiting
  · exact qualifyArrival s p _
  · exact (storeArrival s p r).lockIfPrimed p
  · exact storeArrival s p r
  · exact refl s

theorem takeArrival (h : Reports s t) (p : PortIdx) (f : LaneFrame) (reached : Bool) :
    Reports s (t.takeArrival p f reached) := by
  refine (service s p).takeFragment _ _ (trans (t := t.checkSequence p (frameSequence f)) ?_ (portArrival _ p _ _))
  rw [State.checkSequence_eq]
  exact h.updatePort id

theorem examineConfirming (s : State) (p : PortIdx) (f : LaneFrame) : Reports s (s.examineConfirming p f) := by
  unfold State.examineConfirming
  split
  · split
    · exact (refl s).updatePort id
    · exact takeArrival ((refl s).updatePort id) p f true
  · exact (refl s).updatePort id

/-- R8, R27, R35: a loss of alignment, by the state of the port. -/
theorem examineMissing (s : State) (p : PortIdx) : Reports s (s.examineMissing p) := by
  unfold State.examineMissing
  split
  · exact (refl s).updatePort id
  · have misaligned : Reports s (s.updatePort p fun _ => (s.ports[p]'p.isLt).misaligned) := (refl s).updatePort id
    rw [State.loseAlignment_eq]
    split
    · exact misaligned.trans (failQualification _ p _)
    · exact misaligned.trans (loseSource _ p)
    · exact misaligned.trans (loseSource _ p)
    all_goals exact misaligned

/-! ### The timing unit -/

theorem fixTiming (s : State) : Reports s s.fixTiming where
  raised := by
    unfold State.fixTiming
    dsimp only
    split <;> split
    · exact .latch .refl _
    · exact .latch (.raise .refl _ _ _ _) _
    · exact .refl
    · exact .raise .refl _ _ _ _
  lost p := by
    obtain ⟨timing, events, hw⟩ := s.fixTiming_writes
    rw [hw]
    exact .inl
  holdover held := .inr (s.fixTiming_latched held)
  loss i := by
    obtain ⟨timing, events, hw⟩ := s.fixTiming_writes
    rw [hw]
    exact .inl

/-! ### Output slots -/

theorem takeCommit (s : State) (c : PendingCommit) : Reports s (s.takeCommit c) := by
  obtain ⟨slots, routes, hw, each⟩ := s.takeCommit_writes c
  rw [hw]
  refine of_conditions (.raise .refl _ _ _ _) (fun _ => id) id fun i => ?_
  obtain ⟨slot, -⟩ := each i
  dsimp only
  rw [slot]
  split <;> exact id

theorem checkSettle (s : State) (i : SlotIdx) : Reports s (s.checkSettle i) := by
  unfold State.checkSettle
  dsimp only
  split
  · exact ((refl s).updateSlot id).raise _ _ _
  · exact refl s

/-- R86, R123: a notice leaves no double loss. -/
theorem takeNotice (s : State) (i : SlotIdx) : Reports s (s.takeNotice i) := by
  rw [s.takeNotice_writes i]
  exact of_slot .refl Bool.noConfusion

theorem moveSlot (s : State) (i : SlotIdx) (select : ListSelect) (kind : EventKind) :
    Reports s (s.moveSlot i select kind) := by
  rw [s.moveSlot_eq i select kind]
  exact of_slot (.raise .refl _ _ _ _) Bool.noConfusion

theorem stayAvailable (s : State) (i : SlotIdx) : Reports s (s.stayAvailable i) := (refl s).updateSlot Bool.noConfusion

/-- R122: a double loss latches its alarm. -/
theorem doubleLose (s : State) (i : SlotIdx) : Reports s (s.doubleLose i) := by
  have latched : Reports s ((s.updateProtection i fun x => { x with wtrTimer := none, doubleLoss := true }).latch
      alarmDoubleLoss) :=
    of_slot (f := fun x => { x with protection := { x.protection with wtrTimer := none, doubleLoss := true } })
      (.latch .refl _) fun _ => .inr (EventUnit.latch_self alarmDoubleLoss _)
  unfold State.doubleLose
  dsimp only
  split
  · exact latched
  · exact latched.raise _ _ _

theorem restoreSlot (s : State) (i : SlotIdx) : Reports s (s.restoreSlot i) := by
  unfold State.restoreSlot
  split
  · split
    · exact moveSlot s i _ _
    · exact (refl s).updateSlot Bool.noConfusion
  · exact stayAvailable s i

/-- Table 27. -/
theorem evaluateSlot (s : State) (i : SlotIdx) : Reports s (s.evaluateSlot i) := by
  unfold State.evaluateSlot
  dsimp only
  split
  · split
    · exact stayAvailable s i
    · exact (refl s).updateSlot id
  · split
    · exact stayAvailable s i
    · split
      · exact moveSlot s i _ _
      · exact doubleLose s i
  · split
    · exact restoreSlot s i
    · split
      · exact moveSlot s i _ _
      · exact doubleLose s i
  · exact refl s

/-- A making changes the context alone, and settles the lengths of the profiles entered. -/
theorem updateContext (h : Reports s t) (i : SlotIdx) (f : SlotContext → SlotContext) (index : Fin 8) (enters : Bool) :
    Reports s ((t.updateContext i f).markEntered index enters) := by
  have changed : Reports s (t.updateContext i f) := h.updateSlot id
  exact changed.trans (of_eq .refl rfl rfl rfl)

/-- R108: a request may supersede a transition. -/
theorem takeRequest (h : Reports s t) (i : SlotIdx) (r : Request) : Reports s (State.takeRequest i t r) := by
  unfold State.takeRequest
  dsimp only
  split
  · exact (h.updateContext i _ _ _).raise _ _ _
  · exact h.updateContext i _ _ _

/-- R108: and a step may finish it. -/
theorem stepSlot (h : Reports s t) (i : SlotIdx) : Reports s (t.stepSlot i) := by
  unfold State.stepSlot
  dsimp only
  split
  · exact (h.updateContext i _ _ _).raise _ _ _
  · exact h.updateContext i _ _ _

theorem makeContext (s : State) (i : SlotIdx) : Reports s (s.makeContext i) := by
  have requested : Reports s ((s.applySettle i).takeRequests i) :=
    updateSlot (foldl_keeps (P := Reports s) (fun _ r h => h.takeRequest i r) ((refl s).updateSlot id)) id
  exact requested.stepSlot i

theorem mixSlot (s : State) (i : SlotIdx) : Reports s (s.mixSlot i) := by
  unfold State.mixSlot
  dsimp only
  split
  · split
    · exact ((refl s).updateSlot id).latch _
    · exact (((refl s).updateSlot id).latch _).raise _ _ _
  · exact (refl s).updateSlot id

theorem evaluateMonitor (s : State) (m : Fin 4) : Reports s (s.evaluateMonitor m) := by
  have evaluated : ∀ f, Reports s (s.updateMonitor m f) := fun f => of_eq .refl rfl rfl rfl
  unfold State.evaluateMonitor
  dsimp only
  split
  · exact (evaluated _).raise _ _ _
  · exact evaluated _

/-! ### Boundaries and the passing of time -/

theorem armWorks (s : State) : Reports s s.armWorks :=
  of_conditions .refl (fun p => by rw [s.armWorks_port]; exact id) id fun i => by rw [s.armWorks_slot]; exact id

theorem armPicks (s : State) : Reports s s.armPicks :=
  of_conditions .refl (fun p => by rw [s.armPicks_port]; exact id) id fun _ => id

theorem passTicks (s : State) (n : Nat) : Reports s (s.passTicks n) :=
  of_conditions .refl (fun p => by rw [s.passTicks_port, State.nextTick_state]; exact id) id fun _ => id

/-! ### Commands -/

theorem configurePort (s : State) (p : PortIdx) (enable : Bool) (x : PortSettings) :
    Reports s (configurePort s p enable x) := by
  unfold Machine.configurePort
  split
  · exact (refl s).updatePort fun lost => absurd lost (by cases enable <;> exact PortState.noConfusion)
  · split
    · exact (refl s).updatePort id
    · exact (refl s).updatePort id

theorem restartPort (s : State) (p : PortIdx) : Reports s (restartPort s p) := by
  unfold Machine.restartPort
  split
  · exact (refl s).updatePort PortState.noConfusion
  · exact refl s

theorem clearMeters (s : State) (e : PortIdx) (clear : Bool) : Reports s (clearMeters s e clear) := by
  unfold Machine.clearMeters
  split
  · refine of_conditions .refl (fun _ => id) id fun i => ?_
    dsimp only
    rw [Fin.getElem_fin, Vector.getElem_ofFn]
    split <;> exact id
  · exact refl s

/-- R126: a SWITCH leaves no double loss in the slot it moves. -/
theorem switchSlot (s : State) (i : SlotIdx) (select : ListSelect) : Reports s (switchSlot s i select) := by
  unfold Machine.switchSlot
  split
  · exact refl s
  · exact ((refl s).updateSlot Bool.noConfusion).updateSlot id

end Reports

end Sys2Proof.Machine
end

section
/-! PROOFS. The law of the event unit (R167, R169, R173), and the alarms of the conditions (R179, R181), kept by every step. -/
-- One proof after another: elaborated side by side, the proofs of the whole text come close to the check's memory limit. An
-- index is written with its bound for the same reason.
set_option Elab.async false

namespace Sys2Proof.Machine

/-- P is kept where a block raises events and latches alarms, and by each other operation on the event unit. -/
structure KeptByReports (P : State → Prop) : Prop where
  reports : ∀ {s t : State}, Reports s t → P s → P t
  afterReset : ∀ cause control rows, P ((State.afterReset cause control).withPending rows)
  softReset : ∀ s, P s → P s.softReset
  age : ∀ s, P s → P (s.updateEvents EventUnit.ageRecords)
  timeOut : ∀ s n, P s → P (s.updateEvents (EventUnit.timeOut n))
  sent : ∀ s n, P s → P (s.updateEvents (EventUnit.reportSent n))
  offered : ∀ s r, s.events.offered = some r → P s → P (s.updateEvents (EventUnit.beginTransmission r.sequence))
  abandoned : ∀ s n, P s → P (s.updateEvents (EventUnit.abandonTransmission n))
  moveControl : ∀ s, P s → P (s.updateEvents EventUnit.moveControl)
  config : ∀ (s : State) k x, (x.enabled = false → kindFixed k = false) → P s →
    P (s.updateEvents fun u => { u with config := updateAt u.config k fun _ => x })
  acknowledge : ∀ s numbers, P s →
    P (s.updateEvents fun u => (u.acknowledgeAll s.timing.periodCounter numbers).1.resume)
  clearAlarms : ∀ s mask, P s → P (clearAlarms s mask)
  pinMask : ∀ (s : State) mask, P s → P (s.updateEvents fun u => { u with pinMask := mask })

namespace KeptByReports

variable {P : State → Prop} (k : KeptByReports P) {s : State}
include k

/-- The ports, the timing unit, the slots and the event unit are as they were. -/
theorem same {t : State} (h : P s) (events : t.events = s.events) (ports : t.ports = s.ports) (timing : t.timing = s.timing)
    (slots : t.slots = s.slots) : P t :=
  k.reports (.of_eq (events ▸ .refl) ports timing slots) h

theorem completeSending (e : PortIdx) (h : P s) : P (s.completeSending e) := by
  have ended : P (s.updateEgress e fun y => { y with transmitter := none }) := k.same h rfl rfl rfl rfl
  cases hx : (s.egress[e]'e.isLt).fullySent with
  | none => rw [State.completeSending_of_unsent hx]; exact h
  | some x =>
    rw [State.completeSending_of_sent hx]
    cases x.origin with
    | response => exact ended
    | softReset => exact k.same ended rfl rfl rfl rfl
    | report n => exact k.sent _ n ended

theorem pickMessage (e : PortIdx) (h : P s) : P (s.pickMessage e) := by
  unfold State.pickMessage
  split
  · exact h
  · split
    · unfold State.pickReport
      split
      · next r offered =>
        split
        · exact k.offered _ r (by exact offered) (k.same h rfl rfl rfl rfl)
        · exact h
      · exact h
    · exact k.same h rfl rfl rfl rfl

theorem abandonSending (e : PortIdx) (h : P s) : P (s.abandonSending e) := by
  unfold State.abandonSending
  split
  · split
    · exact k.abandoned _ _ h
    · exact h
    · exact h
  · exact h

theorem blocks : KeptByBlocks P where
  queue _ _ h := k.same h rfl rfl rfl rfl
  afterReset := k.afterReset
  softReset := k.softReset
  passTicks s n := k.reports (.passTicks s n)
  beginBoundary s h :=
    have began : Reports s s.beginPeriod := .of_conditions .refl (fun _ => id) id fun _ => id
    k.reports ((Reports.armPicks _).trans (.armWorks _)) (k.age _ (k.reports began h))
  timing s := k.reports (.fixTiming s)
  commit s c _ := k.reports (.takeCommit s c)
  window s p := k.reports (.takeWindow s p)
  loseSource s p _ := k.reports (.loseSource s p)
  silence s p := k.reports (.takeSilence s p)
  sent _ e h := k.completeSending e h
  reportTimeout := k.timeOut
  pick s p := k.reports (.pickFrame s p)
  settle s i := k.reports (.checkSettle s i)
  notice s i := k.reports (.takeNotice s i)
  evaluate s i := k.reports (.evaluateSlot s i)
  makeContext s i := k.reports (.makeContext s i)
  mixSlot s i := k.reports (.mixSlot s i)
  due s i f _ := k.reports ((Reports.refl s).updateSlot id)
  monitor s m := k.reports (.evaluateMonitor s m)
  pickMessage _ e _ h := k.pickMessage e h
  serve _ _ h := k.same h rfl rfl rfl rfl
  pass _ _ h := k.same h rfl rfl rfl rfl
  sendFrame _ _ h := k.same h rfl rfl rfl rfl
  candidate s p n f _ := by
    unfold State.examineCandidate
    split <;> exact k.reports ((Reports.refl s).updatePort id)
  confirming s p f _ := k.reports (.examineConfirming s p f)
  arrival s p f _ _ := k.reports (.takeArrival ((Reports.refl s).updatePort id) p f _)
  crcError s p _ := k.reports (((Reports.refl s).updatePort id).updatePort id)
  missing s p _ := k.reports (.examineMissing s p)
  taken _ _ _ _ _ h := k.same h rfl rfl rfl rfl
  endTurn _ h := k.same h rfl rfl rfl rfl
  respond _ _ _ _ _ h := k.same h rfl rfl rfl rfl
  halt _ h := k.same h rfl rfl rfl rfl
  control s p _ _ h := by
    unfold Machine.moveControl
    split
    · exact h
    · exact k.reports ((Reports.refl _).raise _ _ _) (k.moveControl _ (k.same h rfl rfl rfl rfl))
  enableEgress s e h := by
    unfold Machine.enableEgress
    split
    · exact h
    · exact k.same h rfl rfl rfl rfl
  disableEgress s e _ h := by
    unfold Machine.disableEgress
    split
    · exact k.same (k.abandonSending e (k.completeSending e h)) rfl rfl rfl rfl
    · exact h
  configurePort s p enable x _ := k.reports (.configurePort s p enable x)
  restartPort s p := k.reports (.restartPort s p)
  clearCounters s p clear h := by
    cases clear
    · exact h
    · exact k.reports ((Reports.refl s).updatePort id) h
  source s _ := k.reports (.of_conditions .refl (fun _ => id) id fun _ => id)
  stage _ _ _ _ _ h := k.same h rfl rfl rfl rfl
  copyActive s mask h := by
    unfold State.copyActive
    exact k.same h rfl rfl rfl rfl
  pendingCommit _ _ h := k.same h rfl rfl rfl rfl
  profile s i x h := s.writeProfile_writes i x ▸ k.same h rfl rfl rfl rfl
  clearClip s i clear h := by
    cases clear
    · exact h
    · exact k.reports ((Reports.refl s).updateSlot id) h
  clearMeters s e clear := k.reports (.clearMeters s e clear)
  switch s i select _ := k.reports (.switchSlot s i select)
  monitorConfig _ _ _ h := k.same h rfl rfl rfl rfl
  eventConfig := k.config
  acknowledge := k.acknowledge
  clearAlarms := k.clearAlarms
  pinMask := k.pinMask

end KeptByReports

/-! ### R167, R169, R173: the event unit -/

namespace EventUnit

variable (u : EventUnit)

theorem reportLoss_config (stamp : Word16) : (u.reportLoss stamp).config = u.config := by
  unfold reportLoss
  split <;> rfl

theorem acknowledge_config (stamp n : Word16) : (u.acknowledge stamp n).1.config = u.config := by
  unfold acknowledge
  split
  · exact reportLoss_config _ stamp
  · rfl

theorem acknowledgeAll_config (stamp : Word16) (numbers : List Word16) :
    (u.acknowledgeAll stamp numbers).1.config = u.config := by
  induction numbers generalizing u with
  | nil => rfl
  | cons n numbers ih => exact (ih _).trans (u.acknowledge_config stamp n)

theorem reportLoss_latched (stamp : Word16) : (u.reportLoss stamp).latched = u.latched := by
  unfold reportLoss
  split <;> rfl

theorem acknowledge_latched (stamp n : Word16) : (u.acknowledge stamp n).1.latched = u.latched := by
  unfold acknowledge
  split
  · exact reportLoss_latched _ stamp
  · rfl

theorem acknowledgeAll_latched (stamp : Word16) (numbers : List Word16) :
    (u.acknowledgeAll stamp numbers).1.latched = u.latched := by
  induction numbers generalizing u with
  | nil => rfl
  | cons n numbers ih => exact (ih _).trans (u.acknowledge_latched stamp n)

/-- R175: a timeout latches REPORT_STALL at most. -/
theorem timeOut_latched (n : Word16) {k : Nat} (before : u.latched.getLsbD k = true) :
    (u.timeOut n).latched.getLsbD k = true := by
  unfold timeOut
  dsimp only
  split
  · exact (latch_latched _ alarmReportStall k).trans (by rw [updateRecord, before, Bool.true_or])
  · exact before

/-- R175: and configures no kind. -/
theorem timeOut_config (n : Word16) : (u.timeOut n).config = u.config := by rw [timeOut_eq]; rfl

end EventUnit

namespace EventsSound

variable {s t : State}

theorem sound (h : EventsSound s) : s.events.sound := by
  obtain ⟨sound, -⟩ := h
  exact sound

/-- The kinds are configured as they were. -/
theorem update (h : EventsSound s) (sound : t.events.sound) (config : t.events.config = s.events.config) :
    EventsSound t := by
  obtain ⟨-, resetDone, eventLoss⟩ := h
  unfold EventsSound
  rw [config]
  exact ⟨sound, resetDone, eventLoss⟩

theorem reports (report : Reports s t) (h : EventsSound s) : EventsSound t :=
  h.update (report.raised.sound h.sound) report.raised.config

/-- R184: the reset's own event enters an empty queue. -/
theorem softReset (h : EventsSound s) : EventsSound s.softReset := by
  have emptied : EventsSound s.softResetValues :=
    h.update ⟨Nat.zero_le _, List.nodup_nil, List.Pairwise.nil, Nat.zero_le _, fun _ queued => absurd queued List.not_mem_nil⟩
      rfl
  exact reports (((Reports.refl _).raise _ _ _).trans ((Reports.armWorks _).trans (.fixTiming _))) emptied

/-- R168: RESET_DONE and EVENT_LOSS stay enabled. -/
theorem configure (h : EventsSound s) {k : Fin 20} {x : KindConfig} (fixed : x.enabled = false → kindFixed k = false) :
    EventsSound (s.updateEvents fun u => { u with config := updateAt u.config k fun _ => x }) := by
  obtain ⟨sound, resetDone, eventLoss⟩ := h
  have kept : ∀ i : Fin 20, kindFixed i = true → s.events.config[i].enabled = true →
      (updateAt s.events.config k fun _ => x)[i].enabled = true := fun i always before => by
    by_cases same : k = i
    · subst same
      rw [updateAt_get_self]
      by_contra off
      exact Bool.noConfusion (always.symm.trans (fixed (Bool.not_eq_true _ ▸ off)))
    · rw [updateAt_get_ne _ _ same]
      exact before
  exact ⟨sound.of_queue rfl, kept _ rfl resetDone, kept _ rfl eventLoss⟩

theorem kept : KeptByReports EventsSound where
  reports := reports
  afterReset := eventsSound_afterReset
  softReset _ h := h.softReset
  age _ h := h.update h.sound.ageRecords rfl
  timeOut _ n h := h.update (h.sound.timeOut n) (EventUnit.timeOut_config _ n)
  sent _ n h := h.update (h.sound.reportSent n) rfl
  offered _ _ offered h := h.update (h.sound.beginTransmission offered) rfl
  abandoned _ n h := h.update (h.sound.abandonTransmission n) rfl
  moveControl _ h := h.update h.sound.moveControl rfl
  config _ _ _ fixed h := h.configure fixed
  acknowledge s numbers h :=
    h.update (h.sound.acknowledgeAll _ numbers).resume (s.events.acknowledgeAll_config _ numbers)
  clearAlarms _ _ h := h.update (h.sound.of_queue rfl) rfl
  pinMask _ _ h := h.update (h.sound.of_queue rfl) rfl

end EventsSound

/-! ### R179, R181: the alarms of the conditions -/

/-- R45: a soft reset takes a port to SEARCH, or leaves it DISABLED. -/
theorem Port.softReset_state_ne_lost (q : Port) : q.softReset.state ≠ .lost := by
  unfold softReset
  dsimp only
  split <;> exact PortState.noConfusion

namespace AlarmsFollow

variable {s t : State}

theorem reports (report : Reports s t) (h : AlarmsFollow s) : AlarmsFollow t := by
  obtain ⟨lost, holdover, loss⟩ := h
  refine ⟨fun p now => ?_, fun now => ?_, fun ⟨i, now⟩ => ?_⟩
  · exact (report.lost p now).elim (fun before => report.raised.latched (lost p before)) id
  · exact (report.holdover now).elim (fun before => report.raised.latched (holdover before)) id
  · exact (report.loss i now).elim (fun before => report.raised.latched (loss ⟨i, before⟩)) id

/-- An operation of the event unit that clears no alarm. -/
theorem updateEvents (h : AlarmsFollow s) {f : EventUnit → EventUnit}
    (latched : ∀ k, s.events.latched.getLsbD k = true → (f s.events).latched.getLsbD k = true) :
    AlarmsFollow (s.updateEvents f) := by
  obtain ⟨lost, holdover, loss⟩ := h
  exact ⟨fun p now => latched _ (lost p now), fun now => latched _ (holdover now), fun now => latched _ (loss now)⟩

/-- R181: the alarm of a condition that holds is latched again. -/
theorem clearAlarms (h : AlarmsFollow s) (mask : BitVec 17) : AlarmsFollow (clearAlarms s mask) := by
  have again : ∀ n : Fin 17, s.conditions.getLsbD n.val = true → s.events.latched.getLsbD n.val = true →
      (clearLatched s.events.latched mask s.conditions).getLsbD n.val = true := fun n holds latched => by
    rw [clearLatched, BitVec.getLsbD_or, BitVec.getLsbD_and, BitVec.getLsbD_and, BitVec.getLsbD_not, holds, latched,
      decide_eq_true n.isLt]
    cases mask.getLsbD n.val <;> rfl
  have bits := s.conditionBits_conditions
  obtain ⟨lost, holdover, loss⟩ := h
  exact ⟨fun p now => again ⟨p.val, by omega⟩ ((bits _).mpr (.inl ⟨p, rfl, now⟩)) (lost p now),
    fun now => again 12 ((bits _).mpr (.inr (.inl ⟨rfl, now⟩))) (holdover now),
    fun now => again 13 ((bits _).mpr (.inr (.inr ⟨rfl, now⟩))) (loss now)⟩

/-- R45, R129, R53: no port is LOST and no slot has lost both lists, and the fix of boundary 0 latches HOLDOVER. -/
theorem softReset (s : State) : AlarmsFollow s.softReset := by
  refine ⟨fun p lost => ?_, s.resetBegun.fixTiming_latched, fun ⟨i, loss⟩ => ?_⟩
  · rw [s.softReset_port p] at lost
    exact absurd lost (s.ports[p]'p.isLt).softReset_state_ne_lost
  · rw [s.softReset_slot i] at loss
    exact Bool.noConfusion loss

theorem kept : KeptByReports AlarmsFollow where
  reports := reports
  afterReset := alarmsFollow_afterReset
  softReset s _ := softReset s
  age _ h := h.updateEvents fun _ => id
  timeOut s n h := h.updateEvents fun _ => s.events.timeOut_latched n
  sent _ _ h := h.updateEvents fun _ => id
  offered _ _ _ h := h.updateEvents fun _ => id
  abandoned _ _ h := h.updateEvents fun _ => id
  moveControl _ h := h.updateEvents fun _ => id
  config _ _ _ _ h := h.updateEvents fun _ => id
  acknowledge s numbers h := h.updateEvents fun k before =>
    (congrArg (BitVec.getLsbD · k) (s.events.acknowledgeAll_latched _ numbers)).trans before
  clearAlarms _ mask h := h.clearAlarms mask
  pinMask _ _ h := h.updateEvents fun _ => id

end AlarmsFollow

end Sys2Proof.Machine

namespace Sys2Proof.Proofs
open Machine

/-- Settles O59: each operation of the event unit keeps the law of its queue, and every other operation of a step only raises
events and latches alarms. -/
theorem stepsKeepEventsSound : Obligations.StepsKeepEventsSound :=
  fun _ _ sound taken => EventsSound.kept.blocks.step_keeps sound taken

/-- Settles O60: whatever brings a condition about latches its alarm, and only CLEAR_ALARMS and the resets clear an alarm. -/
theorem stepsKeepAlarmsLatched : Obligations.StepsKeepAlarmsLatched :=
  fun _ _ follow taken => AlarmsFollow.kept.blocks.step_keeps follow taken

end Sys2Proof.Proofs
end

section
/-! PROOFS. A raised event in the queue (R167 to R171), the timeout of a report (R174, R175), EVENT_ACK (R172, R176), and
CLEAR_ALARMS with the pin (R181, R182). -/
-- One proof after another: elaborated side by side, the proofs of the whole text come close to the check's memory limit. An
-- index is written with its bound for the same reason.
set_option Elab.async false

namespace Sys2Proof.Machine

/-! ### R169: report order -/

/-- R169: behind the place of a new record stand the records of lower priority alone. -/
theorem priority_lt_of_mem_dropWhile {p : Fin 4} {q : List EventRecord}
    (ordered : q.Pairwise fun a b => b.priority ≤ a.priority) {x : EventRecord}
    (behind : x ∈ q.dropWhile fun y => p ≤ y.priority) : x.priority < p := by
  induction q with
  | nil => exact absurd behind List.not_mem_nil
  | cons y q ih =>
    obtain ⟨below, rest⟩ := List.pairwise_cons.mp ordered
    by_cases higher : p ≤ y.priority
    · rw [List.dropWhile_cons_of_pos (by exact decide_eq_true higher)] at behind
      exact ih rest behind
    · rw [List.dropWhile_cons_of_neg (by exact fun named => higher (of_decide_eq_true named))] at behind
      rcases List.mem_cons.mp behind with rfl | later
      · exact lt_of_not_ge higher
      · exact (below x later).trans_lt (lt_of_not_ge higher)

theorem priority_le_of_mem_takeWhile {p : Fin 4} {q : List EventRecord} {x : EventRecord}
    (before : x ∈ q.takeWhile fun y => p ≤ y.priority) : p ≤ x.priority :=
  of_decide_eq_true (List.mem_takeWhile_imp (p := fun y : EventRecord => decide (p ≤ y.priority)) before)

/-- R169: where a new record stands in a queue in report order, some records of which are left out. -/
theorem filter_insertRecord {r : EventRecord} {q : List EventRecord} {keep : EventRecord → Bool} (kept : keep r = true)
    (ordered : q.Pairwise fun a b => b.priority ≤ a.priority) :
    ∃ front back, front ++ back = q.filter keep ∧ (insertRecord r q).filter keep = front ++ r :: back ∧
      (∀ x ∈ front, r.priority ≤ x.priority) ∧ ∀ x ∈ back, x.priority < r.priority := by
  refine ⟨(q.takeWhile fun x => r.priority ≤ x.priority).filter keep,
    (q.dropWhile fun x => r.priority ≤ x.priority).filter keep, ?_, ?_, fun x before => ?_, fun x behind => ?_⟩
  · rw [← List.filter_append, List.takeWhile_append_dropWhile]
  · rw [insertRecord, List.filter_append, List.filter_cons_of_pos kept]
  · exact priority_le_of_mem_takeWhile (List.mem_of_mem_filter before)
  · exact priority_lt_of_mem_dropWhile ordered (List.mem_of_mem_filter behind)

/-- R169: no other record has the number of a record of the queue. -/
theorem sequence_ne_of_distinct {before after : List EventRecord} {r : EventRecord}
    (distinct : ((before ++ r :: after).map (·.sequence)).Nodup) {x : EventRecord} (other : x ∈ before ++ after) :
    x.sequence ≠ r.sequence := by
  have moved : (r.sequence :: (before ++ after).map (·.sequence)).Nodup :=
    (List.perm_middle.map EventRecord.sequence).nodup_iff.mp distinct
  exact fun same => (List.nodup_cons.mp moved).1 (same ▸ List.mem_map_of_mem other)

/-- R169: what a queue holds without the record of one number. -/
theorem mem_rest_iff {before after : List EventRecord} {r : EventRecord}
    (distinct : ((before ++ r :: after).map (·.sequence)).Nodup) {x : EventRecord} :
    x ∈ before ++ after ↔ x ∈ before ++ r :: after ∧ x.sequence ≠ r.sequence := by
  rw [List.perm_middle.mem_iff, List.mem_cons]
  constructor
  · exact fun other => ⟨.inr other, sequence_ne_of_distinct distinct other⟩
  · rintro ⟨rfl | other, apart⟩
    · exact absurd rfl apart
    · exact other

namespace EventUnit

variable {u : EventUnit}

/-- R170: the number a record takes. -/
theorem nextSequence_spec (few : u.queue.length ≤ 32) :
    ∃ k ≤ u.queue.length, u.nextSequence = u.sequence + BitVec.ofNat 16 k ∧
      u.sequence + BitVec.ofNat 16 k ∉ u.queue.map (·.sequence) ∧
      ∀ j < k, u.sequence + BitVec.ofNat 16 j ∈ u.queue.map (·.sequence) := by
  have free := freeSequence_fresh (u.queue.map (·.sequence)) (by rw [List.length_map]; omega) u.sequence
  rw [List.length_map] at free
  obtain ⟨k, bound, number, held, -⟩ := freeSequence_spec (u.queue.map (·.sequence)) u.queue.length u.sequence
  exact ⟨k, bound, number, number ▸ free, held⟩

/-! ### R174, R175: a timeout -/

/-- R175: the timeout stalls the path after the fourth sending. -/
theorem any_stalls {r : EventRecord} (queued : r ∈ u.queue) (distinct : (u.queue.map (·.sequence)).Nodup)
    (late : timedOut r = true) : u.queue.any (stalls r.sequence) = decide (4 ≤ r.sendCount) := by
  rw [Bool.eq_iff_iff, List.any_eq_true, decide_eq_true_eq]
  constructor
  · rintro ⟨x, old, stalling⟩
    rw [stalls, Bool.and_eq_true, Bool.and_eq_true, decide_eq_true_eq, decide_eq_true_eq] at stalling
    obtain ⟨⟨same, -⟩, fourth⟩ := stalling
    obtain rfl := List.inj_on_of_nodup_map distinct old queued same
    exact fourth
  · intro fourth
    refine ⟨r, queued, ?_⟩
    rw [stalls, late, decide_eq_true rfl]
    exact decide_eq_true fourth

/-- R174, R175: a timeout changes its record, and stalls the path after the fourth sending. -/
theorem timeOut_of_timedOut {before after : List EventRecord} {r : EventRecord} (queue : u.queue = before ++ r :: after)
    (distinct : (u.queue.map (·.sequence)).Nodup) (late : timedOut r = true) :
    u.timeOut r.sequence =
      (let v : EventUnit := { u with queue := before ++ timeOutRecord r :: after }
       if 4 ≤ r.sendCount then v.stall else v) := by
  have queued : r ∈ u.queue := queue ▸ List.mem_append_right before List.mem_cons_self
  rw [timeOut, any_stalls queued distinct late, updateRecord_queue _ queue distinct, if_pos late]
  dsimp only
  simp only [decide_eq_true_eq]

/-! ### R176: the records an EVENT_ACK names -/

/-- R176: the OUTSTANDING records with these numbers. -/
def named (numbers : List Word16) (r : EventRecord) : Bool := r.state = .outstanding && numbers.contains r.sequence

theorem named_iff {numbers : List Word16} {r : EventRecord} :
    named numbers r = true ↔ r.state = .outstanding ∧ r.sequence ∈ numbers := by
  rw [named, Bool.and_eq_true, decide_eq_true_eq, List.contains_iff_mem]

theorem named_eq_false_iff {numbers : List Word16} {r : EventRecord} :
    named numbers r = false ↔ (r.state = .outstanding → r.sequence ∉ numbers) := by
  rw [← Bool.not_eq_true, named_iff, not_and]

theorem named_nil (r : EventRecord) : named [] r = false := named_eq_false_iff.mpr fun _ => List.not_mem_nil

theorem named_of_unsent {numbers : List Word16} {r : EventRecord} (unsent : r.state = .unsent) : named numbers r = false := by
  rw [named, unsent]
  rfl

/-- A number that names no record makes no difference. -/
theorem named_append {earlier numbers : List Word16} {r : EventRecord} (unnamed : named earlier r = false) :
    named (earlier ++ numbers) r = named numbers r := by
  rw [named_eq_false_iff] at unnamed
  rw [Bool.eq_iff_iff, named_iff, named_iff, List.mem_append]
  exact and_congr_right fun outstanding => or_iff_right (unnamed outstanding)

theorem named_cons_of_ne {n : Word16} {numbers : List Word16} {r : EventRecord} (other : r.sequence ≠ n) :
    named (n :: numbers) r = named numbers r :=
  named_append (earlier := [n]) (named_eq_false_iff.mpr fun _ same => other (List.mem_singleton.mp same))

section
variable {before after : List EventRecord} {r : EventRecord} (distinct : ((before ++ r :: after).map (·.sequence)).Nodup)
  (outstanding : r.state = .outstanding) (numbers : List Word16)
include distinct outstanding

/-- The first number takes its own record, and the later ones are left to the rest. -/
theorem filter_named_cons :
    (before ++ r :: after).filter (fun x => !named (r.sequence :: numbers) x) =
      (before ++ after).filter fun x => !named numbers x := by
  have taken : named (r.sequence :: numbers) r = true := named_iff.mpr ⟨outstanding, List.mem_cons_self⟩
  rw [List.filter_append, List.filter_cons_of_neg (by rw [taken]; decide), ← List.filter_append]
  exact List.filter_congr fun x other => by rw [named_cons_of_ne (sequence_ne_of_distinct distinct other)]

theorem countP_named_cons :
    (before ++ r :: after).countP (named (r.sequence :: numbers)) = (before ++ after).countP (named numbers) + 1 := by
  have taken : named (r.sequence :: numbers) r = true := named_iff.mpr ⟨outstanding, List.mem_cons_self⟩
  rw [List.perm_middle.countP_eq, List.countP_cons_of_pos taken]
  refine congrArg (· + 1) (List.countP_congr fun x other => ?_)
  rw [named_cons_of_ne (sequence_ne_of_distinct distinct other)]

end

/-! ### R176, step 1: the removals -/

/-- R176: a number that names no OUTSTANDING record. -/
theorem acknowledge_of_unnamed {n : Word16} (unnamed : ∀ r ∈ u.queue, r.state = .outstanding → r.sequence ≠ n)
    (stamp : Word16) : u.acknowledge stamp n = (u, false) := by
  refine if_neg fun named => ?_
  obtain ⟨r, queued, matching⟩ := List.any_eq_true.mp named
  rw [acknowledges, Bool.and_eq_true, decide_eq_true_eq, decide_eq_true_eq] at matching
  exact unnamed r queued matching.2 matching.1

/-- R176, R172: a record leaves the queue, and the loss counted takes its place. -/
theorem acknowledge_of_outstanding {before after : List EventRecord} {r : EventRecord} (queue : u.queue = before ++ r :: after)
    (outstanding : r.state = .outstanding) (distinct : (u.queue.map (·.sequence)).Nodup) (stamp : Word16) :
    u.acknowledge stamp r.sequence = (({ u with queue := before ++ after } : EventUnit).reportLoss stamp, true) := by
  have own : acknowledges r.sequence r = true := by rw [acknowledges, outstanding, decide_eq_true rfl]; rfl
  have others : ∀ x ∈ before, ¬acknowledges r.sequence x = true := fun x early matching => by
    rw [acknowledges, Bool.and_eq_true, decide_eq_true_eq] at matching
    exact sequence_ne_of_distinct (queue ▸ distinct) (List.mem_append_left after early) matching.1
  have found : u.queue.any (acknowledges r.sequence) = true :=
    List.any_eq_true.mpr ⟨r, queue ▸ List.mem_append_right before List.mem_cons_self, own⟩
  rw [acknowledge, if_pos found, queue, List.eraseP_append_right _ others, List.eraseP_cons_of_pos own]

/-- Numbers that name no record come to nothing. -/
theorem acknowledgeAll_append {earlier : List Word16}
    (unnamed : ∀ r ∈ u.queue, r.state = .outstanding → r.sequence ∉ earlier) (stamp : Word16) (numbers : List Word16) :
    u.acknowledgeAll stamp (earlier ++ numbers) = u.acknowledgeAll stamp numbers := by
  induction earlier with
  | nil => rfl
  | cons n earlier ih =>
    have first := acknowledge_of_unnamed (n := n)
      (fun r queued outstanding same => unnamed r queued outstanding (same ▸ List.mem_cons_self)) stamp
    rw [List.cons_append, acknowledgeAll, first]
    exact ih fun r queued outstanding later => unnamed r queued outstanding (List.mem_cons_of_mem n later)

/-- R176: while no event has been lost, exactly the records named leave. -/
theorem acknowledgeAll_of_lossless (distinct : (u.queue.map (·.sequence)).Nodup) (lossless : u.loss = 0#16)
    (stamp : Word16) (numbers : List Word16) :
    u.acknowledgeAll stamp numbers =
      ({ u with queue := u.queue.filter fun r => !named numbers r }, u.queue.countP (named numbers)) := by
  induction numbers generalizing u with
  | nil =>
    rw [List.filter_eq_self.mpr fun r _ => by rw [named_nil, Bool.not_false],
      List.countP_eq_zero.mpr fun r _ => by rw [named_nil]; decide]
    rfl
  | cons n numbers ih =>
    by_cases taken : ∃ r ∈ u.queue, r.state = .outstanding ∧ r.sequence = n
    · obtain ⟨r, queued, outstanding, rfl⟩ := taken
      obtain ⟨before, after, queue⟩ := List.append_of_mem queued
      have rest : ((before ++ after).map (·.sequence)).Nodup :=
        distinct.sublist (queue ▸ ((List.sublist_cons_self r after).append_left before).map _)
      have first : u.acknowledge stamp r.sequence = ({ u with queue := before ++ after }, true) := by
        rw [acknowledge_of_outstanding queue outstanding distinct, reportLoss, if_pos (by exact lossless)]
      rw [acknowledgeAll, first, ih (by exact rest) (by exact lossless), queue,
        filter_named_cons (queue ▸ distinct) outstanding, countP_named_cons (queue ▸ distinct) outstanding]
      rfl
    · have unnamed : ∀ r ∈ u.queue, named [n] r = false := fun r queued =>
        named_eq_false_iff.mpr fun outstanding same => taken ⟨r, queued, outstanding, List.mem_singleton.mp same⟩
      have first := acknowledge_of_unnamed (n := n)
        (fun r queued outstanding same => taken ⟨r, queued, outstanding, same⟩) stamp
      have others : ∀ r ∈ u.queue, named (n :: numbers) r = named numbers r := fun r queued =>
        named_append (earlier := [n]) (unnamed r queued)
      have kept : (u.queue.filter fun r => !named (n :: numbers) r) = u.queue.filter fun r => !named numbers r :=
        List.filter_congr fun r queued => by rw [others r queued]
      have count : u.queue.countP (named (n :: numbers)) = u.queue.countP (named numbers) :=
        List.countP_congr fun r queued => by rw [others r queued]
      rw [acknowledgeAll, first, ih distinct lossless, kept, count]
      rfl

/-- R172: the record that an event loss counted enters the queue as, when a removal frees a place. -/
def lossRecord (u : EventUnit) (stamp : Word16) : EventRecord := u.newRecord stamp .eventLoss 0 u.loss

theorem reportLoss_of_loss (lost : u.loss ≠ 0#16) (stamp : Word16) :
    u.reportLoss stamp =
      { u with queue := insertRecord (u.lossRecord stamp) u.queue, sequence := u.nextSequence + 1#16, loss := 0#16 } :=
  if_neg lost

/-- R172: a removal frees the place of the record of a loss, which takes a number of its own. -/
theorem acknowledge_reports_loss {before after : List EventRecord} {r : EventRecord} (queue : u.queue = before ++ r :: after)
    (outstanding : r.state = .outstanding) (distinct : (u.queue.map (·.sequence)).Nodup) (few : u.queue.length ≤ 32)
    (lost : u.loss ≠ 0#16) (stamp : Word16) :
    ∃ x : EventRecord, (u.acknowledge stamp r.sequence).2 = true ∧ (u.acknowledge stamp r.sequence).1.loss = 0#16 ∧
      (u.acknowledge stamp r.sequence).1.queue.Perm (x :: (before ++ after)) ∧
      x.kind = .eventLoss ∧ x.subject = 0 ∧ x.detail = u.loss ∧ x.stamp = stamp ∧ x.state = .unsent ∧
      x.priority = u.config[EventKind.eventLoss.index].priority ∧
      x.inTransmission = false ∧ x.sendCount = 0 ∧ x.age = 0 ∧ x.sequence ∉ (before ++ after).map (·.sequence) := by
  have fewer : (before ++ after).length ≤ 32 := by
    rw [queue, List.length_append, List.length_cons] at few
    rw [List.length_append]
    omega
  obtain ⟨_, -, number, free, -⟩ := nextSequence_spec (u := { u with queue := before ++ after }) fewer
  rw [acknowledge_of_outstanding queue outstanding distinct, reportLoss_of_loss (by exact lost)]
  refine ⟨lossRecord { u with queue := before ++ after } stamp, rfl, rfl, insertRecord_perm _ _, rfl, rfl, rfl, rfl, rfl, rfl,
    rfl, rfl, rfl, ?_⟩
  rw [lossRecord, newRecord, number]
  exact free

/-- R176: numbers none of which names a record remove none. -/
theorem acknowledgeAll_of_unnamed {numbers : List Word16} (unnamed : ∀ r ∈ u.queue, named numbers r = false)
    (stamp : Word16) : u.acknowledgeAll stamp numbers = (u, u.queue.countP (named numbers)) := by
  have idle := acknowledgeAll_append (fun r queued => named_eq_false_iff.mp (unnamed r queued)) stamp []
  rw [List.append_nil] at idle
  rw [idle, List.countP_eq_zero.mpr fun r queued => by rw [unnamed r queued]; decide]
  rfl

/-- R176, R172: in a sound queue, the first removal reports the loss, and the later ones find none counted. -/
theorem acknowledgeAll_of_loss {before after : List EventRecord} {r : EventRecord} (sound : u.sound) (lost : u.loss ≠ 0#16)
    (queue : u.queue = before ++ r :: after) (outstanding : r.state = .outstanding) (stamp : Word16)
    (numbers : List Word16) :
    u.acknowledgeAll stamp (r.sequence :: numbers) =
      (let v : EventUnit := { u with queue := before ++ after }
       ({ v with
          queue := (insertRecord (v.lossRecord stamp) v.queue).filter fun x => !named numbers x
          sequence := v.nextSequence + 1#16
          loss := 0#16 }, u.queue.countP (named (r.sequence :: numbers)))) := by
  have first := acknowledge_of_outstanding queue outstanding sound.distinct stamp
  have next : (u.acknowledge stamp r.sequence).1.sound := sound.acknowledge stamp r.sequence
  rw [first, reportLoss_of_loss (by exact lost)] at next
  rw [acknowledgeAll, first, reportLoss_of_loss (by exact lost), acknowledgeAll_of_lossless next.distinct rfl, queue,
    countP_named_cons (queue ▸ sound.distinct) outstanding, (insertRecord_perm _ _).countP_eq,
    List.countP_cons_of_neg (by rw [named_of_unsent rfl]; decide)]
  rfl

/-- R170: the number the record of a loss takes, once the record `r` has left a sound queue. -/
theorem nextSequence_of_removed {before after : List EventRecord} {r : EventRecord} (sound : u.sound)
    (queue : u.queue = before ++ r :: after) :
    ∃ steps, ({ u with queue := before ++ after } : EventUnit).nextSequence = u.sequence + BitVec.ofNat 16 steps ∧
      (¬∃ x ∈ u.queue, x.sequence ≠ r.sequence ∧ x.sequence = u.sequence + BitVec.ofNat 16 steps) ∧
      ∀ k < steps, ∃ x ∈ u.queue, x.sequence ≠ r.sequence ∧ x.sequence = u.sequence + BitVec.ofNat 16 k := by
  have left {x : EventRecord} : x ∈ before ++ after ↔ x ∈ u.queue ∧ x.sequence ≠ r.sequence :=
    queue ▸ mem_rest_iff (queue ▸ sound.distinct)
  have rest : ({ u with queue := before ++ after } : EventUnit).sound :=
    sound.sublist (queue ▸ (List.sublist_cons_self r after).append_left before)
  obtain ⟨steps, -, number, free, held⟩ := nextSequence_spec rest.few
  refine ⟨steps, number, fun ⟨x, old, apart, taken⟩ => ?_, fun k before => ?_⟩
  · exact free (List.mem_map.mpr ⟨x, left.mpr ⟨old, apart⟩, taken⟩)
  · obtain ⟨x, other, taken⟩ := List.mem_map.mp (held k before)
    obtain ⟨old, apart⟩ := left.mp other
    exact ⟨x, old, apart, taken⟩

/-- R176, R172: the same with the numbers that come before it, and the place and the number of the record of the loss. -/
theorem acknowledgeAll_reports_loss {r : EventRecord} {earlier : List Word16} (sound : u.sound) (lost : u.loss ≠ 0#16)
    (queued : r ∈ u.queue) (outstanding : r.state = .outstanding)
    (unnamed : ∀ x ∈ u.queue, x.state = .outstanding → x.sequence ∉ earlier) (stamp : Word16) (later : List Word16) :
    ∃ (front back : List EventRecord) (number : Word16) (steps : Nat),
      front ++ back = u.queue.filter (fun x => !named (earlier ++ r.sequence :: later) x) ∧
      (∀ x ∈ front, u.config[EventKind.eventLoss.index].priority ≤ x.priority) ∧
      (∀ x ∈ back, x.priority < u.config[EventKind.eventLoss.index].priority) ∧
      number = u.sequence + BitVec.ofNat 16 steps ∧
      (¬∃ x ∈ u.queue, x.sequence ≠ r.sequence ∧ x.sequence = number) ∧
      (∀ k < steps, ∃ x ∈ u.queue, x.sequence ≠ r.sequence ∧ x.sequence = u.sequence + BitVec.ofNat 16 k) ∧
      u.acknowledgeAll stamp (earlier ++ r.sequence :: later) =
        ({ u with
            loss := 0#16, sequence := number + 1#16
            queue := front ++
              ⟨number, .eventLoss, u.config[EventKind.eventLoss.index].priority, 0, stamp, u.loss, .unsent, false, 0, 0,
                false⟩ :: back },
          u.queue.countP (named (earlier ++ r.sequence :: later))) := by
  obtain ⟨before, after, queue⟩ := List.append_of_mem queued
  have distinct := sound.distinct
  have others : ∀ x ∈ u.queue, named (earlier ++ r.sequence :: later) x = named (r.sequence :: later) x := fun x old =>
    named_append (named_eq_false_iff.mpr (unnamed x old))
  have kept : u.queue.filter (fun x => !named (earlier ++ r.sequence :: later) x) =
      (before ++ after).filter fun x => !named later x := by
    rw [← filter_named_cons (queue ▸ distinct) outstanding, ← queue]
    exact List.filter_congr fun x old => by rw [others x old]
  have count : u.queue.countP (named (earlier ++ r.sequence :: later)) = u.queue.countP (named (r.sequence :: later)) :=
    List.countP_congr fun x old => by rw [others x old]
  obtain ⟨steps, number, free, held⟩ := nextSequence_of_removed sound queue
  have rest : ({ u with queue := before ++ after } : EventUnit).sound :=
    sound.sublist (queue ▸ (List.sublist_cons_self r after).append_left before)
  have unsent : named later (lossRecord { u with queue := before ++ after } stamp) = false := named_of_unsent rfl
  obtain ⟨front, back, whole, placed, above, below⟩ := filter_insertRecord (keep := fun x => !named later x)
    (by rw [unsent]; rfl) rest.ordered
  refine ⟨front, back, _, steps, whole.trans kept.symm, above, below, rfl, free, held, ?_⟩
  rw [acknowledgeAll_append unnamed, acknowledgeAll_of_loss sound lost queue outstanding, count]
  dsimp only at placed ⊢
  rw [placed, lossRecord, newRecord, number]

end EventUnit

end Sys2Proof.Machine
end

section
/-! PROOFS. The rows of the event unit (R172, R174 to R176, R181, R182), and the events it takes (R167 to R171). -/
-- One proof after another: elaborated side by side, the proofs of the whole text come close to the check's memory limit. An
-- index is written with its bound for the same reason.
set_option Elab.async false

namespace Sys2Proof.Machine

variable {s : State} {m : Message}

/-! ### EVENT_ACK -/

/-- R176: the numbers are read back from their bytes. -/
theorem ackNumbers_eq {numbers : List Word16} (count : argByte m 3 = numbers.length)
    (words : ∀ (k : Nat) (h : k < numbers.length), argWord m (4 + 2 * k) = numbers[k]) : ackNumbers m = numbers := by
  refine List.ext_getElem (by rw [ackNumbers, List.length_map, List.length_range, count]) fun k _ bound => ?_
  simp only [ackNumbers, List.getElem_map, List.getElem_range]
  exact words k bound

theorem eventAckRule_eq {numbers : List Word16} (few : numbers.length ≤ 8) (count : argByte m 3 = numbers.length)
    (length : messageLength m = 4 + 2 * numbers.length) (named : ackNumbers m = numbers) {u : EventUnit} {removed : Nat}
    (acknowledged : s.events.acknowledgeAll s.timing.periodCounter numbers = (u, removed)) :
    eventAckRule m s = okWith (s.updateEvents fun _ => u.resume) [BitVec.ofNat 8 removed] := by
  have arguments : (decide (argByte m 3 ≤ 8) && decide (messageLength m = 4 + 2 * argByte m 3)) = true := by
    rw [count, decide_eq_true few, decide_eq_true length]
    rfl
  rw [eventAckRule, if_pos arguments, named, acknowledged]
  rfl

/-- R176: a record the stall held becomes UNSENT again, and every send count clears. -/
def EventRecord.resumed (r : EventRecord) : EventRecord :=
  { r with sendCount := 0, state := if r.stalled then .unsent else r.state, stalled := false }

/-- R176: the row, by what the acknowledgement of its numbers makes of the event unit. -/
theorem exec_eventAck {older newer : List Message} {numbers : List Word16} (turn : Turn s older m newer)
    (control : m.source = s.channel.control) (code : messageCode m = 0x51#8) (few : numbers.length ≤ 8)
    (count : argByte m 3 = numbers.length) (length : messageLength m = 4 + 2 * numbers.length)
    (words : ∀ (k : Nat) (h : k < numbers.length), argWord m (4 + 2 * k) = numbers[k]) {u : EventUnit} {removed : Nat}
    (acknowledged : s.events.acknowledgeAll s.timing.periodCounter numbers = (u, removed)) :
    exec (.eventAck m) s = .next
      (({ s.taken older newer with
          events := { u with path := .running, queue := u.queue.map EventRecord.resumed } } : State).answered m 0#8
        [BitVec.ofNat 8 removed]) := by
  have row : exec (.eventAck m) s = .next ((eventAckRule m (s.taken older newer)).deliver m) :=
    congrArg Host.Outcome.next (executeCommand_of_control turn code control _ _)
  rw [row, eventAckRule_eq few count length (ackNumbers_eq count words) (by exact acknowledged),
    deliver_okWith _ (by exact turn.room)]
  rfl

/-! ### CLEAR_ALARMS and the pin -/

/-- R181: a mask of 17 bits is read back from its bytes. -/
theorem argAlarmMask_eq {i : Nat} {mask : BitVec 17} (bytes : argTriple m i = mask.setWidth 24) :
    argAlarmMask m i = some mask := by
  have small : (argTriple m i).toNat < 2 ^ 17 := by
    rw [bytes, BitVec.toNat_setWidth_of_le (by decide)]
    exact mask.isLt
  rw [argAlarmMask, if_pos small, bytes, BitVec.setWidth_setWidth_of_le _ (by decide), BitVec.setWidth_eq]

theorem clearAlarmsRule_eq {mask : BitVec 17} (length : messageLength m = 6) (bytes : argTriple m 3 = mask.setWidth 24) :
    clearAlarmsRule m s = okWith (clearAlarms s mask) (alarmBytes (clearAlarms s mask).events.latched) := by
  rw [clearAlarmsRule, argAlarmMask_eq bytes]
  exact if_pos length

/-- R181, bit by bit: a masked alarm is latched exactly if its condition holds, the others stay as they are. -/
theorem clearLatched_eq {latched mask conditions after : BitVec 17}
    (bits : ∀ n : Fin 17, after.getLsbD n.val =
      if mask.getLsbD n.val then conditions.getLsbD n.val else latched.getLsbD n.val) :
    clearLatched latched mask conditions = after := by
  refine BitVec.eq_of_getLsbD_eq fun k bound => ?_
  rw [bits ⟨k, bound⟩, clearLatched, BitVec.getLsbD_or, BitVec.getLsbD_and, BitVec.getLsbD_and, BitVec.getLsbD_not,
    decide_eq_true bound]
  cases mask.getLsbD k <;> simp

/-- R182: the pin is low exactly while an alarm is latched and masked. -/
theorem State.alarmPinLow_iff (s : State) :
    s.alarmPinLow = true ↔
      ∃ n : Fin 17, s.events.latched.getLsbD n.val = true ∧ s.events.pinMask.getLsbD n.val = true := by
  rw [alarmPinLow, decide_eq_true_eq, ← not_iff_not, not_not, not_exists]
  constructor
  · intro clear n ⟨latched, masked⟩
    have bit : (s.events.latched &&& s.events.pinMask).getLsbD n.val = true := by
      rw [BitVec.getLsbD_and, latched, masked]
      rfl
    rw [clear, BitVec.getLsbD_zero] at bit
    exact Bool.noConfusion bit
  · intro none
    refine BitVec.eq_of_getLsbD_eq fun k bound => ?_
    rw [BitVec.getLsbD_and, BitVec.getLsbD_zero, Bool.and_eq_false_imp]
    exact fun latched => Bool.not_eq_true _ ▸ fun masked => none ⟨k, bound⟩ ⟨latched, masked⟩

end Sys2Proof.Machine

namespace Sys2Proof.Proofs
open Machine

/-- Settles O50: a disabled kind leaves no trace, a full queue loses the event, and else the search for a number and the place
in report order give the record. -/
theorem raisedEventsEnterTheQueue : Obligations.RaisedEventsEnterTheQueue := by
  intro u stamp kind subject detail
  refine ⟨fun off => if_neg (by rw [off]; decide), fun on full => ?_, fun on room => ?_⟩
  · refine ((if_pos on).trans (if_neg (Nat.not_lt.mpr full))).trans ?_
    rw [EventUnit.lose, saturatingInc_eq]
    rfl
  · obtain ⟨k, bound, number, free, held⟩ := EventUnit.nextSequence_spec (Nat.le_of_lt room)
    refine ⟨k, _, _, bound, List.takeWhile_append_dropWhile.symm, free, held, fun x => priority_le_of_mem_takeWhile,
      fun ordered x => priority_lt_of_mem_dropWhile ordered, ?_⟩
    refine ((if_pos on).trans (if_pos room)).trans ?_
    rw [EventUnit.enter, EventUnit.newRecord, number]
    rfl

/-- Settles O49: the timeout changes its record alone, and after the fourth sending stalls the path. -/
theorem reportsTimeOutAndStall : Obligations.ReportsTimeOutAndStall := by
  intro s r before after queue distinct outstanding free late
  have timedOut : EventUnit.timedOut r = true := by
    rw [EventUnit.timedOut, EventUnit.isOutstanding, outstanding, free]
    exact decide_eq_true late
  have row : exec (.reportTimeout r.sequence) s = .next (s.updateEvents (EventUnit.timeOut r.sequence)) := rfl
  rw [row, State.updateEvents, EventUnit.timeOut_of_timedOut queue distinct timedOut, EventUnit.timeOutRecord_eq]
  refine ⟨fun few => ?_, fun four => ?_⟩
  · rw [if_neg (Nat.not_le.mpr few), if_pos few, if_pos few]
  · rw [if_pos four, if_neg (Nat.not_lt.mpr four), if_neg (Nat.not_lt.mpr four)]
    rfl

/-- Settles O18: the rule clears bit by bit and answers with what is latched; the pin is the masked alarms, bit by bit. -/
theorem alarmsClearSetAgainAndDriveThePin : Obligations.AlarmsClearSetAgainAndDriveThePin := by
  refine ⟨fun s older newer m mask conditions after turn control code length bytes bits cleared => ?_, State.alarmPinLow_iff⟩
  have row : exec (.clearAlarms m) s = .next ((clearAlarmsRule m (s.taken older newer)).deliver m) :=
    congrArg Host.Outcome.next (executeCommand_of_control turn code control _ _)
  obtain rfl := bits.eq_conditions
  obtain rfl := clearLatched_eq cleared
  rw [row, clearAlarmsRule_eq length bytes, deliver_okWith _ (by exact turn.room)]
  rfl

/-- Settles O17: the numbers are taken one after another; the first removal in a unit that has counted a loss reports it, and
the later ones find none. -/
theorem eventAckRemovesRecords : Obligations.EventAckRemovesRecords := by
  refine ⟨?_, ?_, ?_⟩
  · intro s older newer m numbers turn control code few count length words distinct lossless
    exact exec_eventAck turn control code few count length words
      (EventUnit.acknowledgeAll_of_lossless distinct lossless _ _)
  · intro u stamp r before after queue outstanding distinct few lost
    exact EventUnit.acknowledge_reports_loss queue outstanding distinct few lost stamp
  · intro s older newer m numbers named resumed u turn control code few count length words sound lost hn hr hu
    obtain rfl : named = EventUnit.named numbers := funext hn
    obtain rfl : resumed = EventRecord.resumed := funext hr
    obtain rfl := funext hu
    refine ⟨fun unnamed => ?_, fun earlier later first split unnamed ⟨r, queued, outstanding, same⟩ => ?_⟩
    · exact exec_eventAck turn control code few count length words (EventUnit.acknowledgeAll_of_unnamed unnamed _)
    · subst split same
      obtain ⟨front, back, number, steps, kept, above, below, next, free, held, acknowledged⟩ :=
        EventUnit.acknowledgeAll_reports_loss sound lost queued outstanding unnamed s.timing.periodCounter later
      refine ⟨front, back, number, steps, kept, above, below, next, free, held, ?_⟩
      rw [exec_eventAck turn control code few count length words acknowledged, List.map_append, List.map_cons]
      rfl

end Sys2Proof.Proofs
end
